-- ==== Sys2Proof/Word.lean ====
section
/-! DEFINITION. The word types of the block: octets, command words, response values (spec 00_scope.md R14). -/

namespace Sys2Proof

/-- A byte: an unsigned 8-bit value (R14). -/
abbrev Byte := BitVec 8

/-- A 16-bit value: the CRC register, the FCS, the response DATA (R14, R24, R31). -/
abbrev Half := BitVec 16

/-- A command word: 32 bits, delivered whole (R70). -/
abbrev Word := BitVec 32

end Sys2Proof
end

