-- ==== Sys2Proof/Config.lean ====
section
/-! DEFINITION. The implementation parameters and the named constants of the block (spec 00_scope.md R7 to R12). -/

namespace Sys2Proof

/-- The parameters an implementation fixes (R7, R11, R23). No command changes one. They stand in the state so that every
statement about all states holds for every implementation (log entry 1). -/
structure Params where
  /-- MAX_FRAME_LEN: the largest legal LEN byte and the size of RXBUF (R7). -/
  maxFrameLen : Nat
  /-- CNT_W: the bit width of BADCNT and GOODCNT (R11). -/
  cntW : Nat
  deriving DecidableEq, Repr

/-- The default parameters: MAX_FRAME_LEN = 64 and CNT_W = 16 (R7, R11). -/
def Params.default : Params := { maxFrameLen := 64, cntW := 16 }

/-- The legal ranges: 6 ≤ MAX_FRAME_LEN ≤ 255 and 1 ≤ CNT_W ≤ 16 (R7, R11). -/
abbrev Params.Legal (p : Params) : Prop :=
  6 ≤ p.maxFrameLen ∧ p.maxFrameLen ≤ 255 ∧ 1 ≤ p.cntW ∧ p.cntW ≤ 16

/-- MAX_PAYLOAD = MAX_FRAME_LEN − 3, the base framer's limit (R8). -/
def Params.maxPayload (p : Params) : Nat := p.maxFrameLen - 3

/-- MAX_PAYLOAD_ADDR = MAX_PAYLOAD − 2, the addressed layer's limit (R8; C2 of 90_conflicts.md). -/
def Params.maxPayloadAddr (p : Params) : Nat := p.maxPayload - 2

/-- MAX_PAYLOAD_REL = MAX_PAYLOAD − 3, the reliable layer's limit (R8; C2 of 90_conflicts.md). -/
def Params.maxPayloadRel (p : Params) : Nat := p.maxPayload - 3

/-- MIN_LEN = 4: the smallest LEN byte the receive framer accepts (R9; C1 of 90_conflicts.md). -/
def minLen : Nat := 4

/-- BROADCAST = 255: the broadcast address, never a node's identity (R10). -/
def broadcast : Byte := 255#8

/-- CRC_INIT: all ones (R12). -/
def crcInit : Half := 0xFFFF#16

/-- CRC_POLY_REFLECTED: the CCITT polynomial, bit-reversed (R12). -/
def crcPolyReflected : Half := 0x8408#16

/-- GOOD_RESIDUE: the CRC of every valid frame, FCS included (R12, R103). -/
def goodResidue : Half := 0xF0B8#16

/-- TIMEOUT_MS, the default of host_sendToWait's argument (R13). -/
def timeoutMsDefault : Nat := 1000

/-- RETRIES, the default of host_sendToWait's argument (R13). -/
def retriesDefault : Nat := 3

/-- LOCAL_ADDR_DEFAULT (R13). -/
def localAddrDefault : Byte := 0#8

end Sys2Proof
end

