-- ==== Sys2Proof/Syntax.lean ====
section
/-! DEFINITION. The commands of the block, one constructor per row of spec/opcode_table.json (spec 30_encoding.md R73). -/

namespace Sys2Proof

/-- A command with its operands. An operand byte is unsigned and used as it is; the single-bit operand promisc is a Boolean
(R71). -/
inductive Instr where
  /-- NOP (R180). -/
  | nop
  /-- CRC.INIT (R104). -/
  | crcInit
  /-- CRC.UPD byte (R105). -/
  | crcUpd (byte : Byte)
  /-- CRC.RDFCS (R106). -/
  | crcRdfcs
  /-- CRC.RDRAW (R107). -/
  | crcRdraw
  /-- CRC.CHK (R108). -/
  | crcChk
  /-- TXB.WR idx, byte (R121). -/
  | txbWr (idx byte : Byte)
  /-- TX.SEND len (R123). -/
  | txSend (len : Byte)
  /-- TX.SENDTO len, dest (R141). -/
  | txSendto (len dest : Byte)
  /-- TX.SENDSEQ len, dest, flag (R163). -/
  | txSendseq (len dest flag : Byte)
  /-- RX.AVAIL (R126). -/
  | rxAvail
  /-- RX.RECV cap (R127). -/
  | rxRecv (cap : Byte)
  /-- RX.RECVFROM cap, promisc (R143). -/
  | rxRecvfrom (cap : Byte) (promisc : Bool)
  /-- RX.RECVREL cap (R167). -/
  | rxRecvrel (cap : Byte)
  /-- RX.RECVACK dest, seq: seq is the whole operand byte c, whose bit 7 is reserved-zero (R168). -/
  | rxRecvack (dest seq : Byte)
  /-- OUT.RD idx (R128). -/
  | outRd (idx : Byte)
  /-- OUT.HDR (R144). -/
  | outHdr
  /-- SEQ.NEXT (R161). -/
  | seqNext
  /-- SEQ.RD (R162). -/
  | seqRd
  /-- LS.RD addr (R169). -/
  | lsRd (addr : Byte)
  /-- CFG.SETADDR addr (R181). -/
  | cfgSetaddr (addr : Byte)
  /-- CFG.RDADDR (R182). -/
  | cfgRdaddr
  /-- CNT.RDBAD (R183). -/
  | cntRdbad
  /-- CNT.RDGOOD (R184). -/
  | cntRdgood
  /-- FLT.RD (R185). -/
  | fltRd
  deriving DecidableEq, Repr

end Sys2Proof
end

