-- ==== Sys2Proof/Machine/State.lean ====
section
/-! DEFINITION. The state of one node: the block, its transport and its host (spec 10_state.md, 46_host.md), as plain data. -/

namespace Sys2Proof.Machine

/-- Why a step stops with a fault. The block has no trap and nothing in the spec stops it: every outcome of a command is a
STATUS code, and after raise Fault(UNWRITTEN) the block goes on (R220, R223). So this type has no constructor, and no step
faults (log entry 23). Safe. -/
inductive Fault where
  deriving DecidableEq, Repr

/-- Why a step is refused. Every command of the opcode table has its meaning, so no step refuses (log entry 23). -/
inductive Refusal where
  /-- An instruction that has no meaning yet, by its mnemonic. Only an arm of exec could raise it, and none does. Safe. -/
  | notModelled (mnemonic : String)
  deriving DecidableEq, Repr

/-- The STATUS codes that the block produces; the reserved codes have no constructor, since they are never produced (R221). -/
inductive Status where
  /-- 0x00: the command did what it names. -/
  | ok
  /-- 0x01: no complete frame after the availability check. -/
  | noFrame
  /-- 0x02: a frame was consumed whose residue is not the good one. -/
  | badFcs
  /-- 0x03: the length operand exceeds the layer's payload limit. -/
  | oversize
  /-- 0x04: a good frame for another destination was consumed. -/
  | filtered
  /-- 0x05: a good frame shorter than the layer's header was consumed. -/
  | short
  /-- 0x06: an acknowledgement was consumed by RX.RECVREL. -/
  | ackFrame
  /-- 0x07: a duplicate was consumed by RX.RECVREL. -/
  | dup
  /-- 0x08: the awaited acknowledgement was consumed. -/
  | ackMatch
  /-- 0x09: another good, accepted frame was consumed by RX.RECVACK. -/
  | other
  /-- 0x0A: an index or address operand outside its legal range. -/
  | range
  /-- 0x0B: a transmit would have read an unwritten TXBUF cell. -/
  | faultUnwritten
  /-- 0x0F: the word decodes to no command. -/
  | illegal
  deriving DecidableEq, Repr

/-- The kinds of raise Fault(kind). The only kind is UNWRITTEN (R223). -/
inductive FaultKind where
  | unwritten
  deriving DecidableEq, Repr

/-- TXBUF's contents: (cell, byte) pairs, cells strictly rising; a cell not listed is unwritten (R30, log entry 7). -/
abbrev Memory := List Host.Cell

/-- The host procedures of 46_host.md with their arguments (R201 to R208, R210). -/
inductive HostCall where
  /-- host_send(P) (R201). -/
  | send (payload : List Byte)
  /-- host_sendTo(d, P) (R202). -/
  | sendTo (dest : Byte) (payload : List Byte)
  /-- host_recv(cap) (R203). -/
  | recv (cap : Byte)
  /-- host_recvFrom(cap, promisc) (R204). -/
  | recvFrom (cap : Byte) (promisc : Bool)
  /-- host_recv_addressed(cap) (R205). -/
  | recvAddressed (cap : Byte)
  /-- host_sendToWait(d, P, TIMEOUT_MS, RETRIES) (R206). -/
  | sendToWait (dest : Byte) (payload : List Byte) (timeoutMs retries : Nat)
  /-- host_recvFromAck(cap) (R208). -/
  | recvFromAck (cap : Byte)
  /-- host_waitAvailable() (R210). -/
  | waitAvailable
  deriving DecidableEq, Repr

/-- What a host procedure returns (R201 to R208, R210). -/
inductive HostResult where
  /-- SUCCESS of host_send and host_sendTo. -/
  | success
  /-- FAIL of host_send and host_sendTo. -/
  | fail
  /-- FAIL of host_sendToWait: a name of its own, so that R209's Exhausted can be read from it (log entry 26). -/
  | failWait
  /-- ACKNOWLEDGED of host_sendToWait. -/
  | acknowledged
  /-- A receive's result: the flag, the bytes, and OUT.HDR's (from, to) where the procedure reports them. What stands beside
  false at NOFRAME is the model's choice for host_recvFrom and host_recvFromAck (log entry 27). -/
  | received (good : Bool) (bytes : List Byte) (header : Option (Byte × Byte))
  /-- host_waitAvailable returned: at least one byte is available. -/
  | available
  deriving DecidableEq, Repr

/-- One host_sendToWait call in progress: its arguments and thisSequence (R206). -/
structure WaitJob where
  dest : Byte
  payload : List Byte
  timeoutMs : Nat
  retries : Nat
  seq : BitVec 7
  deriving DecidableEq, Repr

/-- What is transmitted once TXB.LOAD has loaded the payload (R201, R202, R206). -/
inductive HostSend where
  /-- TX.SEND. -/
  | base
  /-- TX.SENDTO dest. -/
  | addressed (dest : Byte)
  /-- The attempts of host_sendToWait. -/
  | reliable (job : WaitJob)
  deriving DecidableEq, Repr

/-- Which receive command a receive procedure issued, and so what its loop does with the response (R203, R204, R205, R208). -/
inductive HostReceive where
  /-- RX.RECV (R203). -/
  | base (cap : Byte)
  /-- RX.RECVFROM, with or without address reporting (R204, R205). -/
  | addressed (cap : Byte) (promisc report : Bool)
  /-- RX.RECVREL (R208). -/
  | reliable (cap : Byte)
  deriving DecidableEq, Repr

/-- Where the host procedure in progress stands. In a point named after a command, the command has been issued and the host's
next turn reads its response. -/
inductive HostTask where
  /-- No procedure is in progress. -/
  | idle
  /-- SEQ.NEXT was issued (R206); the job's seq is still to come. -/
  | seqNext (job : WaitJob)
  /-- TXB.LOAD: TXB.WR was issued for the cells below `next` (R83). -/
  | load (what : HostSend) (payload : List Byte) (next : Nat)
  /-- TX.SEND or TX.SENDTO was issued (R201, R202). -/
  | sent
  /-- Attempt `k` of host_sendToWait is to begin (R206). -/
  | attempt (job : WaitJob) (k : Nat)
  /-- TX.SENDSEQ of attempt `k`, begun at `t0`, was issued (R206). -/
  | transmitted (job : WaitJob) (k t0 : Nat)
  /-- RX.RECVACK was issued inside attempt `k`'s poll window (R206). -/
  | polled (job : WaitJob) (k t0 : Nat)
  /-- A receive command was issued (R203, R204, R208). -/
  | receiving (what : HostReceive)
  /-- OUT.RD was issued for byte |bytes| of `total` (R203). -/
  | reading (good report : Bool) (total : Nat) (bytes : List Byte)
  /-- OUT.HDR was issued (R204). -/
  | header (good : Bool) (bytes : List Byte)
  /-- host_waitAvailable's hold (R210). -/
  | waiting
  deriving DecidableEq, Repr

/-- One move of the host or the environment (R22, log entry 11). -/
inductive Event where
  /-- The host presents one command word (R70). -/
  | command (w : Word)
  /-- The host calls a procedure of 46_host.md. -/
  | call (c : HostCall)
  /-- The host takes one turn of the procedure in progress. -/
  | host
  /-- The environment appends bytes to RXQ's tail (R40). -/
  | arrive (bytes : List Byte)
  /-- The environment consumes `n` bytes from TXS's head (R40). -/
  | consume (n : Nat)
  /-- The host's clock advances (R207). -/
  | tick (ms : Nat)
  /-- The block is powered on: it takes its reset values (R240, R241). -/
  | powerOn
  deriving DecidableEq, Repr

/-- The state of one node. RXCOUNT and OUTLEN are the lengths of `rxbuf` and `outbuf` (Machine/Operands.lean). -/
structure State where
  /-- MAX_FRAME_LEN and CNT_W (R7, R11, R23; log entry 1). -/
  params : Params
  /-- CRC, 16 bits (R24). -/
  crc : Half
  /-- RXBUF[0..RXCOUNT): the bytes accumulated for the current frame, in arrival order (R25, R26; log entry 6). -/
  rxbuf : List Byte
  /-- BADCNT, in the low CNT_W bits (R28; log entry 8). -/
  badcnt : Half
  /-- GOODCNT, in the low CNT_W bits (R29; log entry 8). -/
  goodcnt : Half
  /-- TXBUF (R30). -/
  txbuf : Memory
  /-- STATUS (R31, R221). -/
  status : Status
  /-- DATA, 16 bits (R31). -/
  data : Half
  /-- OUTBUF, of length OUTLEN (R32). -/
  outbuf : List Byte
  /-- OUTFROM, 8 bits (R33). -/
  outfrom : Byte
  /-- OUTTO, 8 bits (R33). -/
  outto : Byte
  /-- LOCAL, 8 bits (R34). -/
  localAddr : Byte
  /-- SEQ, 7 bits (R35). -/
  seq : BitVec 7
  /-- LASTSEEN, a direct array of 256 entries of 7 bits (R36). -/
  lastseen : Vector (BitVec 7) 256
  /-- FAULT, 1 bit, sticky (R37). -/
  faultFlag : Bool
  /-- RXQ: bytes available from the transport, oldest first (R40). -/
  rxq : List Byte
  /-- TXS: bytes handed to the transport and not yet consumed by the environment, oldest first (R40). -/
  txs : List Byte
  /-- The command word the host has presented and the block has not executed yet (R2, R21, R70; log entry 2). -/
  cmd : Option Word
  /-- The host procedure in progress (46_host.md). -/
  task : HostTask
  /-- What the last host procedure returned (46_host.md). -/
  result : Option HostResult
  /-- The host's clock, in milliseconds (R207). -/
  clock : Nat
  /-- The moves of host and environment still to come (log entry 11). -/
  agenda : List Event
  deriving DecidableEq, Repr

/-- The node at power-on with the given parameters: every element of R24 to R37 at its reset value (R240). The transport is
empty, the host idle and its clock at 0 (DESIGN CHOICE, log entries 4 and 12: the spec gives no starting value for what belongs
to the environment and the host). -/
def State.fresh (p : Params) : State where
  params := p
  crc := crcInit
  rxbuf := []
  badcnt := 0#16
  goodcnt := 0#16
  txbuf := []
  status := .ok
  data := 0#16
  outbuf := []
  outfrom := 0#8
  outto := 0#8
  localAddr := localAddrDefault
  seq := 0#7
  lastseen := Vector.replicate 256 0#7
  faultFlag := false
  rxq := []
  txs := []
  cmd := none
  task := .idle
  result := none
  clock := 0
  agenda := []

/-- The machine right after reset, at the default parameters (R7, R11, R240). -/
def State.reset : State := State.fresh Params.default

end Sys2Proof.Machine
end

