-- ==== Sys2Proof/Machine/Flags.lean ====
section
/-! DEFINITION. STATUS codes and the response. The block has no flags beyond STATUS, DATA and FAULT (spec 10_state.md R31, R38;
60_exceptions.md R221). -/

namespace Sys2Proof.Machine

/-- The STATUS byte of each code (R221). -/
def Status.code : Status → Byte
  | .ok => 0x00#8
  | .noFrame => 0x01#8
  | .badFcs => 0x02#8
  | .oversize => 0x03#8
  | .filtered => 0x04#8
  | .short => 0x05#8
  | .ackFrame => 0x06#8
  | .dup => 0x07#8
  | .ackMatch => 0x08#8
  | .other => 0x09#8
  | .range => 0x0A#8
  | .faultUnwritten => 0x0B#8
  | .illegal => 0x0F#8

/-- respond(status, data): STATUS and DATA are written, as the last action of a command (R14, R31). -/
def State.respond (s : State) (status : Status) (data : Half) : State := { s with status := status, data := data }

/-- The codes each command may report (R221, "produced by"). -/
def producedBy : Instr → List Status
  | .txSend _ | .txSendto _ _ | .txSendseq _ _ _ => [.oversize, .faultUnwritten, .ok]
  | .txbWr _ _ | .outRd _ | .cfgSetaddr _ => [.range, .ok]
  | .rxRecv _ => [.noFrame, .badFcs, .ok]
  | .rxRecvfrom _ _ => [.noFrame, .badFcs, .short, .filtered, .ok]
  | .rxRecvrel _ => [.noFrame, .badFcs, .short, .filtered, .ackFrame, .dup, .ok]
  | .rxRecvack _ _ => [.noFrame, .badFcs, .short, .filtered, .ackMatch, .other]
  | .nop | .crcInit | .crcUpd _ | .crcRdfcs | .crcRdraw | .crcChk | .rxAvail | .outHdr
  | .seqNext | .seqRd | .lsRd _ | .cfgRdaddr | .cntRdbad | .cntRdgood | .fltRd => [.ok]

end Sys2Proof.Machine
end

