-- ==== Sys2Proof/Machine/Memory.lean ====
section
/-! DEFINITION. TXBUF as the model's one memory: reading, writing, and the canonical form (spec 10_state.md R30,
20_memory.md R50, R51). -/

namespace Sys2Proof.Machine

/-- What a cell that is not listed holds: it is unwritten (R30). -/
def Memory.unlisted : Option Byte := none

/-- The cell `i`: its byte, or unwritten (R30). -/
def Memory.read : Memory → Nat → Option Byte
  | [], _ => Memory.unlisted
  | (a, b) :: m, i => if a = i then some b else Memory.read m i

/-- Cell `i` holds byte `v` from now on; the list stays strictly rising (R51). -/
def Memory.write : Memory → Nat → Byte → Memory
  | [], i, v => [(i, v)]
  | (a, b) :: m, i, v =>
    if i < a then (i, v) :: (a, b) :: m
    else if i = a then (i, v) :: m
    else (a, b) :: Memory.write m i v

/-- The canonical form: cells strictly rising. No listed cell equals an unlisted one, since those are unwritten. -/
abbrev Memory.wf (m : Memory) : Prop := List.Pairwise (fun x y => x.1 < y.1) m

/-- The bytes of `n` cells from cell `i` on, or none if one of them is unwritten (R129). -/
def Memory.readRange (m : Memory) : Nat → Nat → Option (List Byte)
  | _, 0 => some []
  | i, n + 1 =>
    match m.read i, Memory.readRange m (i + 1) n with
    | some b, some bs => some (b :: bs)
    | _, _ => none

end Sys2Proof.Machine
end

