-- ==== Sys2Proof/WellFormed.lean ====
section
/-! DEFINITION. Which commands have an encoding: the operand types leave one check, RX.RECVACK's reserved-zero bit
(spec 30_encoding.md R72, R73). -/

namespace Sys2Proof

/-- Every operand fits its field. The one operand whose type is wider than its field is RX.RECVACK's seq: bit 7 of c is
reserved-zero, so a seq of 128 or more has no encoding (R73, R168). -/
def Instr.wellFormed : Instr → Bool
  | .rxRecvack _ seq => decide (seq.toNat < 128)
  | .nop | .crcInit | .crcUpd _ | .crcRdfcs | .crcRdraw | .crcChk
  | .txbWr _ _ | .txSend _ | .txSendto _ _ | .txSendseq _ _ _
  | .rxAvail | .rxRecv _ | .rxRecvfrom _ _ | .rxRecvrel _ | .outRd _ | .outHdr
  | .seqNext | .seqRd | .lsRd _ | .cfgSetaddr _ | .cfgRdaddr | .cntRdbad | .cntRdgood | .fltRd => true

/-- Well-formedness as a proposition. -/
abbrev Instr.WellFormed (i : Instr) : Prop := i.wellFormed = true

end Sys2Proof
end

