-- ==== Sys2Proof/Decode.lean ====
section
/-! DEFINITION. Decoding and encoding of command words (spec 30_encoding.md R70 to R76, R80, R81). -/

namespace Sys2Proof

/-- The five fields of a command word (R70). -/
structure Fields where
  op : BitVec 4
  fn : BitVec 4
  a : Byte
  b : Byte
  c : Byte
  deriving DecidableEq, Repr

/-- Field extraction (R71). -/
def fields (w : Word) : Fields :=
  { op := w.extractLsb' 28 4, fn := w.extractLsb' 24 4, a := w.extractLsb' 16 8, b := w.extractLsb' 8 8,
    c := w.extractLsb' 0 8 }

/-- The word that has the given fields (R70). -/
def pack (op fn : BitVec 4) (a b c : Byte) : Word := op ++ fn ++ a ++ b ++ c

/-- Why a word decodes to no command (R76). Every kind answers the one status ILLEGAL (R80). -/
inductive Illegal where
  /-- No row of the opcode map has this op and fn. -/
  | unassignedOpcode
  /-- The op and fn are assigned, but a reserved-zero operand bit is set. -/
  | reservedBitSet
  deriving DecidableEq, Repr

/-- What decoding answers (R75). -/
inductive Decoded where
  | command (i : Instr)
  | illegal (why : Illegal)
  deriving DecidableEq, Repr

/-- A row of the opcode map: a word is the row's command when its bits under `mask` are `pattern` (R73, R75). -/
structure OpRow where
  mnemonic : String
  pattern : Word
  mask : Word
  command : Fields → Instr

/-- A word matches a row (R75). -/
def rowMatches (w : Word) (r : OpRow) : Bool := w &&& r.mask == r.pattern

/-- The rows of groups 0 and 1, misc and CRC (R73). -/
def crcRows : List OpRow :=
  [ ⟨"NOP", 0x00000000#32, 0xFFFFFFFF#32, fun _ => .nop⟩,
    ⟨"CRC.INIT", 0x10000000#32, 0xFFFFFFFF#32, fun _ => .crcInit⟩,
    ⟨"CRC.UPD", 0x11000000#32, 0xFF00FFFF#32, fun f => .crcUpd f.a⟩,
    ⟨"CRC.RDFCS", 0x12000000#32, 0xFFFFFFFF#32, fun _ => .crcRdfcs⟩,
    ⟨"CRC.RDRAW", 0x13000000#32, 0xFFFFFFFF#32, fun _ => .crcRdraw⟩,
    ⟨"CRC.CHK", 0x14000000#32, 0xFFFFFFFF#32, fun _ => .crcChk⟩ ]

/-- The rows of group 2, transmit (R73). -/
def txRows : List OpRow :=
  [ ⟨"TXB.WR", 0x20000000#32, 0xFF0000FF#32, fun f => .txbWr f.a f.b⟩,
    ⟨"TX.SEND", 0x21000000#32, 0xFF00FFFF#32, fun f => .txSend f.a⟩,
    ⟨"TX.SENDTO", 0x22000000#32, 0xFF0000FF#32, fun f => .txSendto f.a f.b⟩,
    ⟨"TX.SENDSEQ", 0x23000000#32, 0xFF000000#32, fun f => .txSendseq f.a f.b f.c⟩ ]

/-- The rows of group 3, receive (R73). -/
def rxRows : List OpRow :=
  [ ⟨"RX.AVAIL", 0x30000000#32, 0xFFFFFFFF#32, fun _ => .rxAvail⟩,
    ⟨"RX.RECV", 0x31000000#32, 0xFF00FFFF#32, fun f => .rxRecv f.a⟩,
    ⟨"RX.RECVFROM", 0x32000000#32, 0xFF00FEFF#32, fun f => .rxRecvfrom f.a (f.b.getLsbD 0)⟩,
    ⟨"RX.RECVREL", 0x33000000#32, 0xFF00FFFF#32, fun f => .rxRecvrel f.a⟩,
    ⟨"RX.RECVACK", 0x34000000#32, 0xFFFF0080#32, fun f => .rxRecvack f.b f.c⟩,
    ⟨"OUT.RD", 0x35000000#32, 0xFF00FFFF#32, fun f => .outRd f.a⟩,
    ⟨"OUT.HDR", 0x36000000#32, 0xFFFFFFFF#32, fun _ => .outHdr⟩ ]

/-- The rows of group 4, sequence and configuration (R73). -/
def seqRows : List OpRow :=
  [ ⟨"SEQ.NEXT", 0x40000000#32, 0xFFFFFFFF#32, fun _ => .seqNext⟩,
    ⟨"SEQ.RD", 0x41000000#32, 0xFFFFFFFF#32, fun _ => .seqRd⟩,
    ⟨"LS.RD", 0x42000000#32, 0xFF00FFFF#32, fun f => .lsRd f.a⟩,
    ⟨"CFG.SETADDR", 0x43000000#32, 0xFF00FFFF#32, fun f => .cfgSetaddr f.a⟩,
    ⟨"CFG.RDADDR", 0x44000000#32, 0xFFFFFFFF#32, fun _ => .cfgRdaddr⟩,
    ⟨"CNT.RDBAD", 0x45000000#32, 0xFFFFFFFF#32, fun _ => .cntRdbad⟩,
    ⟨"CNT.RDGOOD", 0x46000000#32, 0xFFFFFFFF#32, fun _ => .cntRdgood⟩,
    ⟨"FLT.RD", 0x47000000#32, 0xFFFFFFFF#32, fun _ => .fltRd⟩ ]

/-- The opcode map, in the table's order (R73). -/
def opcodeTable : List OpRow := crcRows ++ txRows ++ rxRows ++ seqRows

/-- Which kind of reserved encoding an undecodable word is (R76). -/
def illegalKind (w : Word) : Illegal :=
  if opcodeTable.any (fun r => r.pattern.extractLsb' 24 8 == w.extractLsb' 24 8) then .reservedBitSet
  else .unassignedOpcode

/-- Decoding, total over all words: the first row that matches, else ILLEGAL (R75). -/
def decode (w : Word) : Decoded :=
  match opcodeTable.find? (rowMatches w) with
  | some r => .command (r.command (fields w))
  | none => .illegal (illegalKind w)

/-- The word of a command, from the opcode map (R73). -/
def encode : Instr → Word
  | .nop => pack 0 0 0 0 0
  | .crcInit => pack 1 0 0 0 0
  | .crcUpd byte => pack 1 1 byte 0 0
  | .crcRdfcs => pack 1 2 0 0 0
  | .crcRdraw => pack 1 3 0 0 0
  | .crcChk => pack 1 4 0 0 0
  | .txbWr idx byte => pack 2 0 idx byte 0
  | .txSend len => pack 2 1 len 0 0
  | .txSendto len dest => pack 2 2 len dest 0
  | .txSendseq len dest flag => pack 2 3 len dest flag
  | .rxAvail => pack 3 0 0 0 0
  | .rxRecv cap => pack 3 1 cap 0 0
  | .rxRecvfrom cap promisc => pack 3 2 cap (if promisc then 1 else 0) 0
  | .rxRecvrel cap => pack 3 3 cap 0 0
  | .rxRecvack dest seq => pack 3 4 0 dest seq
  | .outRd idx => pack 3 5 idx 0 0
  | .outHdr => pack 3 6 0 0 0
  | .seqNext => pack 4 0 0 0 0
  | .seqRd => pack 4 1 0 0 0
  | .lsRd addr => pack 4 2 addr 0 0
  | .cfgSetaddr addr => pack 4 3 addr 0 0
  | .cfgRdaddr => pack 4 4 0 0 0
  | .cntRdbad => pack 4 5 0 0 0
  | .cntRdgood => pack 4 6 0 0 0
  | .fltRd => pack 4 7 0 0 0

/-- The command word whose low `nbits` bits are those of `w`, every bit above them zero (bit 0 the least significant). -/
def commandWord (nbits w : Nat) : Word := BitVec.ofNat 32 (w % 2 ^ nbits)

/-- What the decoder reads from a word given as a number of `nbits` bits. The block has one instruction length, 32 bits
(R70, R81), so a longer instruction does not exist. -/
def decodeTableWord (nbits w : Nat) : Option Instr :=
  if nbits ≤ 32 then
    match decode (commandWord nbits w) with
    | .command i => some i
    | .illegal _ => none
  else none

end Sys2Proof
end

