-- ==== Sys2Proof/Machine/Operands.lean ====
section
/-! DEFINITION. The operand forms and the fields of frames: lengths, capacities, sequence fields, the flag byte, and the
derived counts RXCOUNT and OUTLEN (spec 30_encoding.md R71; 43_reliable.md R160; 10_state.md R26, R32). -/

namespace Sys2Proof.Machine

/-- zext_16: a byte zero-extended into DATA (R15). -/
def zext16 (b : Byte) : Half := b.zeroExtend 16

/-- A count as a DATA value (R84). -/
def countData (n : Nat) : Half := BitVec.ofNat 16 n

/-- A verdict as a DATA value: 1 for true, 0 for false (R108, R126). -/
def verdictData (v : Bool) : Half := if v then 1#16 else 0#16

/-- A sequence number as a DATA value (R161, R169). -/
def seqData (s : BitVec 7) : Half := s.zeroExtend 16

/-- The low 7 bits of a byte: a sequence field (R160, R168). -/
def seqField (b : Byte) : BitVec 7 := b.extractLsb' 0 7

/-- The acknowledgement flag of a FLAG_SQN byte: bit 7 (R160). -/
def ackBit (flag : Byte) : Bool := flag.getLsbD 7

/-- The FLAG_SQN byte of an acknowledgement of sequence number s: s | 0x80 (R166). -/
def ackFlagByte (s : BitVec 7) : Byte := s.zeroExtend 8 ||| 0x80#8

/-- The FLAG_SQN byte of a data message with sequence number s: bit 7 clear (R160, R163). -/
def dataFlagByte (s : BitVec 7) : Byte := s.zeroExtend 8

/-- The capacity rule: the first min(cap, |bytes|) bytes (R127, R143, R167). -/
def truncateTo (cap : Byte) (bytes : List Byte) : List Byte := bytes.take cap.toNat

/-- RXCOUNT: the count of bytes buffered in RXBUF (R26). -/
def State.rxcount (s : State) : Nat := s.rxbuf.length

/-- OUTLEN: the length of OUTBUF (R32). -/
def State.outlen (s : State) : Nat := s.outbuf.length

/-- FAULT as a DATA value (R185). -/
def faultData (f : Bool) : Half := if f then 1#16 else 0#16

end Sys2Proof.Machine
end

