-- ==== Sys2Proof/Machine/Ops.lean ====
section
/-! DEFINITION. The shared operations: the CRC function, the buffer and transport accessors, raise Fault, frame construction,
the availability check and frame consumption, the comparators (spec 00_scope.md R15 and the rules it names). -/

namespace Sys2Proof.Machine

/-! ### The CRC function (40_crc.md) -/

/-- One bit of crc_update, for bit 0 of b (R101). -/
def crcBit (c : Half) (b : Byte) : Half :=
  if (c ^^^ b.zeroExtend 16) &&& 1#16 = 1#16 then (c >>> 1) ^^^ crcPolyReflected else c >>> 1

/-- `n` rounds of crc_update's loop, least-significant bit of b first (R101). -/
def crcRounds : Nat → Half → Byte → Half
  | 0, c, _ => c
  | n + 1, c, b => crcRounds n (crcBit c b) (b >>> 1)

/-- crc_update(c, b) (R101). -/
def crcUpdate (c : Half) (b : Byte) : Half := crcRounds 8 c b

/-- The byte-at-a-time form of crc_update (R109). R101's is the normative one and the one the commands use. -/
def crcUpdateByteForm (c : Half) (b : Byte) : Half :=
  let d0 : Byte := b ^^^ c.extractLsb' 0 8
  let d : Byte := d0 ^^^ (d0 <<< 4)
  ((d.zeroExtend 16 <<< 8) ||| (c.extractLsb' 8 8).zeroExtend 16) ^^^ (d >>> 4).zeroExtend 16 ^^^ (d.zeroExtend 16 <<< 3)

/-- crc_over(s, c0) (R102). -/
def crcOverFrom (c0 : Half) (s : List Byte) : Half := s.foldl crcUpdate c0

/-- crc_over(s), from CRC_INIT (R102). -/
def crcOver (s : List Byte) : Half := crcOverFrom crcInit s

/-- The FCS that a CRC value generates: its one's complement (R103, R106). -/
def fcsOf (c : Half) : Half := ~~~c

/-- The two FCS bytes in wire order, low byte first (R58, R103). -/
def fcsBytes (c : Half) : List Byte := [(fcsOf c).extractLsb' 0 8, (fcsOf c).extractLsb' 8 8]

/-! ### raise Fault: the block has no traps, so this is all an exception does (60_exceptions.md R220, R223, R226) -/

/-- raise Fault(kind): the sticky FAULT flag is set; the block goes on (R223). Nothing is saved, no mode changes, no vector is
taken, and there is no return (R226). -/
def State.raiseFault (s : State) (kind : FaultKind) : State :=
  match kind with
  | .unwritten => { s with faultFlag := true }

/-! ### Buffer accessors (20_memory.md R51 to R53) -/

/-- TxBufRead(i): the byte in cell i, or unwritten (R51). -/
def State.txBufRead (s : State) (i : Nat) : Option Byte := s.txbuf.read i

/-- TxBufWrite(i, v) within the range; the caller has tested i < MAX_PAYLOAD (R51). -/
def State.txBufWrite (s : State) (i : Nat) (v : Byte) : State := { s with txbuf := s.txbuf.write i v }

/-- OutBufRead(i): the byte at i where i < OUTLEN (R52). -/
def State.outBufRead (s : State) (i : Nat) : Option Byte := s.outbuf[i]?

/-- LastSeen[a], read (R53). -/
def State.lastSeen (s : State) (a : Byte) : BitVec 7 := s.lastseen[a.toNat]'a.isLt

/-- LastSeen[a] <- q (R53). -/
def State.setLastSeen (s : State) (a : Byte) (q : BitVec 7) : State :=
  { s with lastseen := s.lastseen.set a.toNat q a.isLt }

/-- OUTBUF is replaced whole, and OUTLEN with it (R32). -/
def State.setOutput (s : State) (bytes : List Byte) : State := { s with outbuf := bytes }

/-- OUTTO and OUTFROM of an accepted frame (R33). -/
def State.setOutputHeader (s : State) (dest src : Byte) : State := { s with outto := dest, outfrom := src }

/-! ### Transport primitives (20_memory.md R56, R57) -/

/-- TxEmit(s): the bytes are appended to TXS; it never fails (R57). -/
def State.txEmit (s : State) (bytes : List Byte) : State := { s with txs := s.txs ++ bytes }

/-- RxPop() on RXQ = v :: q, as far as the state goes: RXQ becomes q (R56). -/
def State.rxPopTo (s : State) (q : List Byte) : State := { s with rxq := q }

/-- RxDiscardPending(): RXQ becomes empty (R56). -/
def State.rxDiscardPending (s : State) : State := { s with rxq := [] }

/-! ### Transmit (41_framer.md R122, R129) -/

/-- tx_gather(L): the first L payload bytes, or FAULT (none) if a cell is unwritten (R129). -/
def State.txGather (s : State) (len : Nat) : Option (List Byte) := s.txbuf.readRange 0 len

/-- The LEN byte of a frame around a body: |body| + 3 (R58, R122). -/
def lenByte (body : List Byte) : Byte := BitVec.ofNat 8 (body.length + 3)

/-- What precedes a frame's FCS: [LEN] ++ body (R103, R122). -/
def frameHead (body : List Byte) : List Byte := lenByte body :: body

/-- The whole frame around a body: LEN, body, FCS_LO, FCS_HI (R58). -/
def frameOf (body : List Byte) : List Byte := frameHead body ++ fcsBytes (crcOver (frameHead body))

/-- emit_frame(body): CRC keeps crc_over([LEN] ++ body), and the frame is appended to TXS (R122). Its value LEN is `lenByte`. -/
def State.emitFrame (s : State) (body : List Byte) : State :=
  State.txEmit { s with crc := crcOver (frameHead body) } (frameOf body)

/-- What the three transmits share: the oversize check, tx_gather, emit_frame around the layer's header and the payload, in
this order (R123, R141, R163, R224). -/
def State.transmit (s : State) (limit : Nat) (header : List Byte) (len : Byte) : State :=
  if len.toNat > limit then s.respond .oversize 0#16
  else
    match s.txGather len.toNat with
    | none => (s.raiseFault .unwritten).respond .faultUnwritten 0#16
    | some payload => (s.emitFrame (header ++ payload)).respond .ok (zext16 (lenByte (header ++ payload)))

/-! ### Receive (41_framer.md R124, R125) -/

/-- complete(): RXCOUNT ≥ 1 and RXCOUNT = RXBUF[0] (R27). -/
def State.complete (s : State) : Bool :=
  match s.rxbuf with
  | [] => false
  | len :: _ => s.rxcount == len.toNat

/-- The plausibility window of a frame's first byte: MIN_LEN ≤ v ≤ MAX_FRAME_LEN (R130). -/
def plausible (p : Params) (v : Byte) : Bool := decide (minLen ≤ v.toNat) && decide (v.toNat ≤ p.maxFrameLen)

/-- A counter of `w` bits, plus one modulo 2^w (R28, R29; C7 of 90_conflicts.md). -/
def bump (w : Nat) (c : Half) : Half := BitVec.ofNat 16 ((c.toNat + 1) % 2 ^ w)

/-- RXBUF[RXCOUNT] <- v; RXCOUNT <- RXCOUNT + 1 (R124). -/
def State.rxPush (s : State) (v : Byte) : State := { s with rxbuf := s.rxbuf ++ [v] }

/-- A rejected first byte: BADCNT counts it and all pending input is discarded (R124, R131). -/
def State.rxReject (s : State) : State := State.rxDiscardPending { s with badcnt := bump s.params.cntW s.badcnt }

/-- rx_pull's loop while RXQ holds the given bytes (R124). After a rejected first byte RXQ is empty, so the loop ends there. -/
def State.rxPullLoop : List Byte → State → State
  | [], s => s
  | v :: q, s =>
    if s.complete then s
    else if s.rxcount = 0 then
      if plausible s.params v then State.rxPullLoop q ((s.rxPopTo q).rxPush v)
      else (s.rxPopTo q).rxReject
    else State.rxPullLoop q ((s.rxPopTo q).rxPush v)

/-- rx_pull(), as far as the state goes; its answer is `complete` of the state it leaves (R124). -/
def State.rxPull (s : State) : State := State.rxPullLoop s.rxq s

/-- The frame that rx_take consumes: RXBUF[0..n) with n = RXBUF[0] (R125). -/
def State.bufferedFrame (s : State) : List Byte :=
  match s.rxbuf with
  | [] => []
  | len :: _ => s.rxbuf.take len.toNat

/-- A frame is valid when its residue is the good one (R103). -/
def goodFrame (f : List Byte) : Bool := crcOver f == goodResidue

/-- rx_take(), as far as the state goes: CRC keeps the residue, GOODCNT counts a good frame, and RXCOUNT becomes 0. The frame
is `bufferedFrame` and the verdict `goodFrame` of it (R125). -/
def State.rxTake (s : State) : State :=
  { s with
    crc := crcOver s.bufferedFrame
    goodcnt := if goodFrame s.bufferedFrame then bump s.params.cntW s.goodcnt else s.goodcnt
    rxbuf := [] }

/-- The body of a frame: f[1 .. |f|−2) (R125). -/
def frameBody (f : List Byte) : List Byte := (f.take (f.length - 2)).drop 1

/-- What the three header-reading receives share: NOFRAME, then BADFCS, then whatever the layer does with a good frame's body
in the state rx_take leaves (R143, R167, R168, R224). -/
def State.receiveGood (s : State) (layer : List Byte → State → State) : State :=
  let s1 := s.rxPull
  if s1.complete then
    if goodFrame s1.bufferedFrame then layer (frameBody s1.bufferedFrame) s1.rxTake
    else s1.rxTake.respond .badFcs 0#16
  else s1.respond .noFrame 0#16

/-! ### The address filter and the sequence comparators (42_addressed.md, 43_reliable.md) -/

/-- accept(dest, promisc) (R142). -/
def State.accept (s : State) (dest : Byte) (promisc : Bool) : Bool :=
  promisc || dest == s.localAddr || dest == broadcast

/-- dup(src, s), the duplicate-suppression comparator (R164). -/
def State.dup (s : State) (src : Byte) (q : BitVec 7) : Bool := s.lastSeen src == q

/-- ackmatch(body, d, t), the acknowledgement-match comparator (R165). -/
def State.ackMatch (s : State) (body : List Byte) (d : Byte) (t : BitVec 7) : Bool :=
  match body with
  | dest :: src :: flag :: _ => src == d && dest == s.localAddr && ackBit flag && seqField flag == t
  | _ => false

/-- The body of the acknowledgement of sequence number q from sender src: [src, LOCAL, q | 0x80] (R166). -/
def State.ackBody (s : State) (src : Byte) (q : BitVec 7) : List Byte := [src, s.localAddr, ackFlagByte q]

/-- The automatic acknowledgement of RX.RECVREL: sent unless the frame was broadcast (R167, R172). -/
def State.acknowledge (s : State) (dest src : Byte) (q : BitVec 7) : State :=
  if dest = broadcast then s else s.emitFrame (s.ackBody src q)

/-- An undecodable word changes nothing but the response (R80). -/
def State.respondIllegal (s : State) : State := s.respond .illegal 0#16

end Sys2Proof.Machine
end

