-- ==== Sys2Proof/Machine/HostProc.lean ====
section
/-! DEFINITION. The host procedures, as a host that issues commands and reads their responses turn by turn
(spec 46_host.md R200 to R211). -/

namespace Sys2Proof.Machine

/-- The host presents a command and remembers where its procedure stands (R200). -/
def State.issue (s : State) (i : Instr) (next : HostTask) : State := { s with cmd := some (encode i), task := next }

/-- The procedure returns (R201 to R210). -/
def State.finish (s : State) (r : HostResult) : State := { s with task := .idle, result := some r }

/-- What a receive returns at NOFRAME. For host_recv it is R203's (false, []). R204 and R208 write (false, …) and leave open
what stands beside false: the empty list and no addresses are the model's choice there (DESIGN CHOICE, log entry 27). -/
def nothingReceived : HostResult := .received false [] none

/-- The payload is in TXBUF: transmit it, or begin the attempts of host_sendToWait (R201, R202, R206). -/
def State.hostTransmit (s : State) (what : HostSend) (payload : List Byte) : State :=
  match what with
  | .base => s.issue (.txSend (BitVec.ofNat 8 payload.length)) .sent
  | .addressed d => s.issue (.txSendto (BitVec.ofNat 8 payload.length) d) .sent
  | .reliable job => { s with task := .attempt job 0 }

/-- TXB.LOAD: issue TXB.WR for cell `next`, or go on once every cell is written (R83). -/
def State.hostLoad (s : State) (what : HostSend) (payload : List Byte) (next : Nat) : State :=
  match payload[next]? with
  | some b => s.issue (.txbWr (BitVec.ofNat 8 next) b) (.load what payload (next + 1))
  | none => s.hostTransmit what payload

/-- The beginning of attempt `k`: t0 is read and TX.SENDSEQ issued with the same payload and sequence number every time, or
the retries are exhausted (R206). -/
def State.hostAttempt (s : State) (job : WaitJob) (k : Nat) : State :=
  if k ≤ job.retries then
    s.issue (.txSendseq (BitVec.ofNat 8 job.payload.length) job.dest (dataFlagByte job.seq)) (.transmitted job k s.clock)
  else s.finish .failWait

/-- The poll window's test, now() − t0 < TIMEOUT_MS: one more RX.RECVACK, or the next attempt (R206). -/
def State.hostPoll (s : State) (job : WaitJob) (k t0 : Nat) : State :=
  if s.clock - t0 < job.timeoutMs then s.issue (.rxRecvack job.dest (dataFlagByte job.seq)) (.polled job k t0)
  else { s with task := .attempt job (k + 1) }

/-- The receive command of a receive procedure (R203, R204, R208). -/
def HostReceive.command : HostReceive → Instr
  | .base cap => .rxRecv cap
  | .addressed cap promisc _ => .rxRecvfrom cap promisc
  | .reliable cap => .rxRecvrel cap

/-- Whether a receive procedure reports OUT.HDR's addresses (R204, R205, R208). -/
def HostReceive.reports : HostReceive → Bool
  | .base _ => false
  | .addressed _ _ report => report
  | .reliable _ => true

/-- The OUT.RD loop: read the next byte, then OUT.HDR if the procedure reports it, then return (R203, R204). -/
def State.hostRead (s : State) (good report : Bool) (total : Nat) (bytes : List Byte) : State :=
  if bytes.length < total then s.issue (.outRd (BitVec.ofNat 8 bytes.length)) (.reading good report total bytes)
  else if report then s.issue .outHdr (.header good bytes)
  else s.finish (.received good bytes none)

/-- What a receive procedure does with the response of its receive command: host_recv returns at once, the others go on to
the next frame unless the status is OK or NOFRAME (R203, R204, R208). -/
def State.hostReceived (s : State) (what : HostReceive) : State :=
  match s.status with
  | .ok => s.hostRead true what.reports s.data.toNat []
  | .noFrame => s.finish nothingReceived
  | _ =>
    match what with
    | .base _ => s.hostRead false false s.data.toNat []
    | .addressed _ _ _ | .reliable _ => s.issue what.command (.receiving what)

/-- A procedure is called: its length check and its first command (R201 to R208, R210). -/
def State.hostStart (s : State) (c : HostCall) : State :=
  match c with
  | .send p => if p.length > s.params.maxPayload then s.finish .fail else s.hostLoad .base p 0
  | .sendTo d p => if p.length > s.params.maxPayloadAddr then s.finish .fail else s.hostLoad (.addressed d) p 0
  | .recv cap => s.issue (.rxRecv cap) (.receiving (.base cap))
  | .recvFrom cap promisc => s.issue (.rxRecvfrom cap promisc) (.receiving (.addressed cap promisc true))
  | .recvAddressed cap => s.issue (.rxRecvfrom cap false) (.receiving (.addressed cap false false))
  | .sendToWait d p t r =>
    if p.length > s.params.maxPayloadRel then s.finish .failWait
    else s.issue .seqNext (.seqNext { dest := d, payload := p, timeoutMs := t, retries := r, seq := 0#7 })
  | .recvFromAck cap => s.issue (.rxRecvrel cap) (.receiving (.reliable cap))
  | .waitAvailable => { s with task := .waiting }

/-- One turn of the host in the procedure in progress. An idle host has no turn (R209), and host_waitAvailable holds until
RXQ is not empty (R210). -/
def State.hostTurn (s : State) : State :=
  match s.task with
  | .idle => s
  | .seqNext job => s.hostLoad (.reliable { job with seq := s.data.extractLsb' 0 7 }) job.payload 0
  | .load what payload next => s.hostLoad what payload next
  | .sent => s.finish (if s.status = .ok then .success else .fail)
  | .attempt job k => s.hostAttempt job k
  | .transmitted job k t0 => if job.dest = broadcast then s.finish .acknowledged else s.hostPoll job k t0
  | .polled job k t0 => if s.status = .ackMatch then s.finish .acknowledged else s.hostPoll job k t0
  | .receiving what => s.hostReceived what
  | .reading good report total bytes => s.hostRead good report total (bytes ++ [s.data.extractLsb' 0 8])
  | .header good bytes =>
    s.finish (.received good bytes (some (s.data.extractLsb' 0 8, s.data.extractLsb' 8 8)))
  | .waiting => if s.rxq = [] then s else s.finish .available

/-- The states of one host_sendToWait call (R209). -/
inductive SendPhase where
  | idle | sending | awaitingAck | acknowledged | retrying | exhausted
  deriving DecidableEq, Repr

/-- The state of the host_sendToWait call, read from the task, the command port and the result (R209). Sending lasts until
TX.SENDSEQ has been executed, the while test and its polls are AwaitingAck, the beginning of a further attempt that RETRIES
allows is Retrying, and the return of FAIL is Exhausted.

R209 maps no state for SEQ.NEXT and TXB.LOAD, which run before Sending: there the answer is none. It also leaves open the
beginning of attempt 0 and a broadcast after its one transmission, which count as Sending; a call whose payload is too long,
which returns FAIL and counts as Exhausted; and what a terminal state becomes, which stays until the next call of a procedure.
These are the model's choices (DESIGN CHOICE, log entry 26). -/
def State.sendPhase (s : State) : Option SendPhase :=
  match s.task with
  | .seqNext _ | .load (.reliable _) _ _ => none
  | .attempt job k => some (if k = 0 then .sending else if k ≤ job.retries then .retrying else .exhausted)
  | .transmitted job _ _ => some (if s.cmd ≠ none ∨ job.dest = broadcast then .sending else .awaitingAck)
  | .polled _ _ _ => some .awaitingAck
  | .idle =>
    match s.result with
    | some .acknowledged => some .acknowledged
    | some .failWait => some .exhausted
    | _ => some .idle
  | .load .base _ _ | .load (.addressed _) _ _ | .sent | .receiving _ | .reading _ _ _ _ | .header _ _ | .waiting =>
    some .idle

end Sys2Proof.Machine
end

