-- ==== Sys2Proof/Machine/Agents.lean ====
section
/-! DEFINITION. What host and environment do between two commands (spec 10_state.md R22, R40; 46_host.md R200, R207;
70_reset_and_hazards.md R240, R241). -/

namespace Sys2Proof.Machine

/-- Reset: every element of R24 to R37 takes its reset value and no other value is written: RXQ and TXS, the host's own state
and the parameters stay (R240, R242). -/
def State.powerOn (s : State) : State :=
  { State.fresh s.params with
    rxq := s.rxq, txs := s.txs, cmd := s.cmd, task := s.task, result := s.result, clock := s.clock, agenda := s.agenda }

/-- The environment appends bytes to RXQ's tail (R40). -/
def State.arrive (s : State) (bytes : List Byte) : State := { s with rxq := s.rxq ++ bytes }

/-- The environment consumes bytes from TXS's head (R40). -/
def State.consume (s : State) (n : Nat) : State := { s with txs := s.txs.drop n }

/-- One event takes place (R22). A call clears the result of the call before it. -/
def State.happen (s : State) (e : Event) : State :=
  match e with
  | .command w => { s with cmd := some w }
  | .call c => State.hostStart { s with result := none } c
  | .host => s.hostTurn
  | .arrive bytes => s.arrive bytes
  | .consume n => s.consume n
  | .tick ms => { s with clock := s.clock + ms }
  | .powerOn => s.powerOn

/-- Whether an event is a new request of the host, which its one thread reaches only when no procedure is in progress (R200,
R244). -/
def Event.needsIdleHost : Event → Bool
  | .command _ | .call _ => true
  | .host | .arrive _ | .consume _ | .tick _ | .powerOn => false

/-- The move between two commands: the agenda's first event; but a new request of the host waits while its procedure is in
progress, and the host then takes a turn of that procedure, as it does when the agenda is empty (log entries 11, 14). -/
def State.agentsMove (s : State) : State :=
  match s.agenda with
  | [] => s.hostTurn
  | e :: rest => if e.needsIdleHost && s.task != .idle then s.hostTurn else State.happen { s with agenda := rest } e

end Sys2Proof.Machine
end

