-- ==== Sys2Proof/Machine/Addressed.lean ====
section
/-! DEFINITION. The addressed layer's commands (spec 42_addressed.md R141, R143 to R145). -/

namespace Sys2Proof.Machine

/-- TX.SENDTO: a frame with the header [dest, LOCAL] (R141). -/
def execTxSendto (len dest : Byte) (s : State) : Host.Outcome State Fault Refusal :=
  .next (s.transmit s.params.maxPayloadAddr [dest, s.localAddr] len)

/-- What RX.RECVFROM does with a good frame's body: SHORT, FILTERED, or delivery with both addresses (R143, R145). -/
def deliverAddressed (cap : Byte) (promisc : Bool) (body : List Byte) (s : State) : State :=
  match body with
  | dest :: src :: inner =>
    if s.accept dest promisc then
      ((s.setOutput (truncateTo cap inner)).setOutputHeader dest src).respond .ok
        (countData (truncateTo cap inner).length)
    else s.respond .filtered 0#16
  | _ => s.respond .short 0#16

/-- RX.RECVFROM: one frame through the destination filter (R143). -/
def execRxRecvfrom (cap : Byte) (promisc : Bool) (s : State) : Host.Outcome State Fault Refusal :=
  .next (s.receiveGood (deliverAddressed cap promisc))

/-- OUT.HDR: (OUTTO << 8) | OUTFROM (R144). -/
def execOutHdr (s : State) : Host.Outcome State Fault Refusal :=
  .next (s.respond .ok ((zext16 s.outto <<< 8) ||| zext16 s.outfrom))

end Sys2Proof.Machine
end

