-- ==== Sys2Proof/Machine/Crc.lean ====
section
/-! DEFINITION. The CRC unit's commands (spec 40_crc.md R104 to R108). -/

namespace Sys2Proof.Machine

/-- CRC.INIT: CRC becomes all ones (R104). -/
def execCrcInit (s : State) : Host.Outcome State Fault Refusal :=
  .next (State.respond { s with crc := crcInit } .ok 0#16)

/-- CRC.UPD: one byte is folded into CRC, and DATA is the new CRC (R105). -/
def execCrcUpd (byte : Byte) (s : State) : Host.Outcome State Fault Refusal :=
  .next (State.respond { s with crc := crcUpdate s.crc byte } .ok (crcUpdate s.crc byte))

/-- CRC.RDFCS: DATA is the FCS that CRC would generate, FCS_LO in its low byte (R106). -/
def execCrcRdfcs (s : State) : Host.Outcome State Fault Refusal :=
  .next (s.respond .ok (fcsOf s.crc))

/-- CRC.RDRAW: DATA is CRC (R107). -/
def execCrcRdraw (s : State) : Host.Outcome State Fault Refusal :=
  .next (s.respond .ok s.crc)

/-- CRC.CHK: DATA says whether CRC is the good residue; no counter is written (R108). -/
def execCrcChk (s : State) : Host.Outcome State Fault Refusal :=
  .next (s.respond .ok (verdictData (s.crc == goodResidue)))

end Sys2Proof.Machine
end

