-- ==== Sys2Proof/Machine/Framer.lean ====
section
/-! DEFINITION. The framer's commands (spec 41_framer.md R121, R123, R126 to R128). -/

namespace Sys2Proof.Machine

/-- TXB.WR: one payload byte into TXBUF, or RANGE (R121). -/
def execTxbWr (idx byte : Byte) (s : State) : Host.Outcome State Fault Refusal :=
  .next (if idx.toNat < s.params.maxPayload then (s.txBufWrite idx.toNat byte).respond .ok 0#16
    else s.respond .range 0#16)

/-- TX.SEND: a base-layer frame of TXBUF[0..len) (R123). -/
def execTxSend (len : Byte) (s : State) : Host.Outcome State Fault Refusal :=
  .next (s.transmit s.params.maxPayload [] len)

/-- RX.AVAIL: the availability check; DATA says whether a complete frame is buffered (R126). -/
def execRxAvail (s : State) : Host.Outcome State Fault Refusal :=
  .next (s.rxPull.respond .ok (verdictData s.rxPull.complete))

/-- What RX.RECV does with the complete frame it takes: OUTBUF is written on OK and on BADFCS alike (R127). -/
def State.deliverBase (s : State) (cap : Byte) : State :=
  let out := truncateTo cap (frameBody s.bufferedFrame)
  (s.rxTake.setOutput out).respond (if goodFrame s.bufferedFrame then .ok else .badFcs) (countData out.length)

/-- RX.RECV: one base-layer frame (R127). -/
def execRxRecv (cap : Byte) (s : State) : Host.Outcome State Fault Refusal :=
  .next (if s.rxPull.complete then s.rxPull.deliverBase cap else s.rxPull.respond .noFrame 0#16)

/-- OUT.RD: one byte of OUTBUF, or RANGE (R128). -/
def execOutRd (idx : Byte) (s : State) : Host.Outcome State Fault Refusal :=
  .next (match s.outBufRead idx.toNat with
    | some b => s.respond .ok (zext16 b)
    | none => s.respond .range 0#16)

end Sys2Proof.Machine
end

