-- ==== Sys2Proof/Machine/Misc.lean ====
section
/-! DEFINITION. Configuration, counters and miscellaneous commands (spec 44_config.md R180 to R185). -/

namespace Sys2Proof.Machine

/-- NOP: only the response (R180). -/
def execNop (s : State) : Host.Outcome State Fault Refusal :=
  .next (s.respond .ok 0#16)

/-- CFG.SETADDR: LOCAL becomes addr, or RANGE for 255 (R181). -/
def execCfgSetaddr (addr : Byte) (s : State) : Host.Outcome State Fault Refusal :=
  .next (if addr = broadcast then s.respond .range 0#16
    else State.respond { s with localAddr := addr } .ok 0#16)

/-- CFG.RDADDR: DATA is LOCAL (R182). -/
def execCfgRdaddr (s : State) : Host.Outcome State Fault Refusal :=
  .next (s.respond .ok (zext16 s.localAddr))

/-- CNT.RDBAD: DATA is BADCNT, which is not cleared (R183). -/
def execCntRdbad (s : State) : Host.Outcome State Fault Refusal :=
  .next (s.respond .ok s.badcnt)

/-- CNT.RDGOOD: DATA is GOODCNT, which is not cleared (R184). -/
def execCntRdgood (s : State) : Host.Outcome State Fault Refusal :=
  .next (s.respond .ok s.goodcnt)

/-- FLT.RD: DATA is FAULT, which is not cleared (R185). -/
def execFltRd (s : State) : Host.Outcome State Fault Refusal :=
  .next (s.respond .ok (faultData s.faultFlag))

end Sys2Proof.Machine
end

