-- ==== Sys2Proof/Machine/Sequence.lean ====
section
/-! DEFINITION. The sequence unit's commands (spec 43_reliable.md R161 to R163, R167 to R169). -/

namespace Sys2Proof.Machine

/-- SEQ.NEXT: SEQ becomes (SEQ + 1) mod 128, and DATA is the new SEQ (R161). -/
def execSeqNext (s : State) : Host.Outcome State Fault Refusal :=
  .next (State.respond { s with seq := s.seq + 1#7 } .ok (seqData (s.seq + 1#7)))

/-- SEQ.RD: DATA is SEQ (R162). -/
def execSeqRd (s : State) : Host.Outcome State Fault Refusal :=
  .next (s.respond .ok (seqData s.seq))

/-- TX.SENDSEQ: a frame with the header [dest, LOCAL, flag]; SEQ is not written (R163). -/
def execTxSendseq (len dest flag : Byte) (s : State) : Host.Outcome State Fault Refusal :=
  .next (s.transmit s.params.maxPayloadRel [dest, s.localAddr, flag] len)

/-- The last part of RX.RECVREL, after the acknowledgement: DUP, or the message is new, recorded and delivered (R167). -/
def State.deliverNew (s : State) (cap dest src : Byte) (q : BitVec 7) (inner : List Byte) : State :=
  if s.dup src q then s.respond .dup (seqData q)
  else
    (((s.setLastSeen src q).setOutput (truncateTo cap inner)).setOutputHeader dest src).respond .ok
      (countData (truncateTo cap inner).length)

/-- What RX.RECVREL does with a good frame's body: SHORT, FILTERED, ACKFRAME, or the acknowledgement and then DUP or delivery
(R167, R171, R172). -/
def deliverReliable (cap : Byte) (body : List Byte) (s : State) : State :=
  match body with
  | dest :: src :: flag :: inner =>
    if s.accept dest false then
      if ackBit flag then s.respond .ackFrame 0#16
      else (s.acknowledge dest src (seqField flag)).deliverNew cap dest src (seqField flag) inner
    else s.respond .filtered 0#16
  | _ => s.respond .short 0#16

/-- RX.RECVREL: one frame at the reliable layer (R167). -/
def execRxRecvrel (cap : Byte) (s : State) : Host.Outcome State Fault Refusal :=
  .next (s.receiveGood (deliverReliable cap))

/-- What RX.RECVACK does with a good frame's body: SHORT, FILTERED, ACKMATCH or OTHER (R168). -/
def awaitAck (dest : Byte) (q : BitVec 7) (body : List Byte) (s : State) : State :=
  match body with
  | target :: _ :: _ =>
    if s.accept target false then
      if s.ackMatch body dest q then s.respond .ackMatch (seqData q) else s.respond .other 0#16
    else s.respond .filtered 0#16
  | _ => s.respond .short 0#16

/-- RX.RECVACK: one frame while awaiting an acknowledgement; the sequence number is c[6:0] (R168). -/
def execRxRecvack (dest seq : Byte) (s : State) : Host.Outcome State Fault Refusal :=
  .next (s.receiveGood (awaitAck dest (seqField seq)))

/-- LS.RD: DATA is LASTSEEN[addr] (R169). -/
def execLsRd (addr : Byte) (s : State) : Host.Outcome State Fault Refusal :=
  .next (s.respond .ok (seqData (s.lastSeen addr)))

end Sys2Proof.Machine
end

