-- ==== Sys2Proof/Machine/Dispatch.lean ====
section
/-! DEFINITION. One arm per command: each calls its meaning (spec 30_encoding.md R73). -/

namespace Sys2Proof.Machine

def exec (i : Instr) (s : State) : Host.Outcome State Fault Refusal :=
  match i with
  | .nop => Sys2Proof.Machine.execNop s
  | .crcInit => Sys2Proof.Machine.execCrcInit s
  | .crcUpd byte => Sys2Proof.Machine.execCrcUpd byte s
  | .crcRdfcs => Sys2Proof.Machine.execCrcRdfcs s
  | .crcRdraw => Sys2Proof.Machine.execCrcRdraw s
  | .crcChk => Sys2Proof.Machine.execCrcChk s
  | .txbWr idx byte => Sys2Proof.Machine.execTxbWr idx byte s
  | .txSend len => Sys2Proof.Machine.execTxSend len s
  | .txSendto len dest => Sys2Proof.Machine.execTxSendto len dest s
  | .txSendseq len dest flag => Sys2Proof.Machine.execTxSendseq len dest flag s
  | .rxAvail => Sys2Proof.Machine.execRxAvail s
  | .rxRecv cap => Sys2Proof.Machine.execRxRecv cap s
  | .rxRecvfrom cap promisc => Sys2Proof.Machine.execRxRecvfrom cap promisc s
  | .rxRecvrel cap => Sys2Proof.Machine.execRxRecvrel cap s
  | .rxRecvack dest seq => Sys2Proof.Machine.execRxRecvack dest seq s
  | .outRd idx => Sys2Proof.Machine.execOutRd idx s
  | .outHdr => Sys2Proof.Machine.execOutHdr s
  | .seqNext => Sys2Proof.Machine.execSeqNext s
  | .seqRd => Sys2Proof.Machine.execSeqRd s
  | .lsRd addr => Sys2Proof.Machine.execLsRd addr s
  | .cfgSetaddr addr => Sys2Proof.Machine.execCfgSetaddr addr s
  | .cfgRdaddr => Sys2Proof.Machine.execCfgRdaddr s
  | .cntRdbad => Sys2Proof.Machine.execCntRdbad s
  | .cntRdgood => Sys2Proof.Machine.execCntRdgood s
  | .fltRd => Sys2Proof.Machine.execFltRd s

end Sys2Proof.Machine
end

