-- ==== Sys2Proof/Machine/Fetch.lean ====
section
/-! DEFINITION. Taking the command word the host has presented and executing it (spec 30_encoding.md R70, R75, R80;
20_memory.md R54). -/

namespace Sys2Proof.Machine

/-- The presented word has been taken: nothing is presented any more. -/
def State.takeCommand (s : State) : State := { s with cmd := none }

/-- A word is decoded and its command executed; an ILLEGAL word only answers ILLEGAL (R75, R80). -/
def State.execWord (s : State) (w : Word) : Host.Outcome State Fault Refusal :=
  match decode w with
  | .command i => exec i s
  | .illegal _ => .next s.respondIllegal

/-- The host presents a command word (R70). -/
def State.present (s : State) (w : Word) : State := { s with cmd := some w }

/-- A sequence of commands, one after the other, with nothing between them: what a host's straight-line sequence or a
pseudo-instruction's expansion does (R60, R83). -/
def execAll : List Instr → State → Host.Outcome State Fault Refusal
  | [], s => .next s
  | i :: is, s =>
    match exec i s with
    | .next t => execAll is t
    | .fault r => .fault r
    | .refused r => .refused r

end Sys2Proof.Machine
end

