-- ==== Sys2Proof/Machine/Step.lean ====
section
/-! DEFINITION. One step of a node: the block executes the presented command atomically, or, when none is presented, host or
environment make one move (spec 10_state.md R22; 20_memory.md R54; 70_reset_and_hazards.md R242). -/

namespace Sys2Proof.Machine

/-- One step (R22, R54). With no command presented, an empty agenda and an idle host, the block waits and nothing changes
(R242, log entry 3). -/
def step (s : State) : Host.Outcome State Fault Refusal :=
  match s.cmd with
  | some w => s.takeCommand.execWord w
  | none => .next s.agentsMove

/-- The state with the given instruction presented as the next command (log entry 2). -/
def State.withFetchWord (s : State) (nbits w : Nat) : State := s.present (commandWord nbits w)

end Sys2Proof.Machine
end

