-- ==== Sys2Proof/Machine/Asm.lean ====
section
/-! DEFINITION. Assembler syntax and pseudo-instructions (spec 30_encoding.md R82, R83). Neither has any effect on what the
block does. -/

namespace Sys2Proof.Machine

/-- The operands of a command as written, in field order (R82). -/
def operandsOf : Instr → List Nat
  | .crcUpd x | .txSend x | .rxRecv x | .rxRecvrel x | .outRd x | .lsRd x | .cfgSetaddr x => [x.toNat]
  | .txbWr x y | .txSendto x y | .rxRecvack x y => [x.toNat, y.toNat]
  | .txSendseq x y z => [x.toNat, y.toNat, z.toNat]
  | .rxRecvfrom cap promisc => [cap.toNat, if promisc then 1 else 0]
  | .nop | .crcInit | .crcRdfcs | .crcRdraw | .crcChk | .rxAvail | .outHdr | .seqNext | .seqRd | .cfgRdaddr
  | .cntRdbad | .cntRdgood | .fltRd => []

/-- The mnemonic of a command (R73). -/
def mnemonicOf : Instr → String
  | .nop => "NOP"
  | .crcInit => "CRC.INIT"
  | .crcUpd _ => "CRC.UPD"
  | .crcRdfcs => "CRC.RDFCS"
  | .crcRdraw => "CRC.RDRAW"
  | .crcChk => "CRC.CHK"
  | .txbWr _ _ => "TXB.WR"
  | .txSend _ => "TX.SEND"
  | .txSendto _ _ => "TX.SENDTO"
  | .txSendseq _ _ _ => "TX.SENDSEQ"
  | .rxAvail => "RX.AVAIL"
  | .rxRecv _ => "RX.RECV"
  | .rxRecvfrom _ _ => "RX.RECVFROM"
  | .rxRecvrel _ => "RX.RECVREL"
  | .rxRecvack _ _ => "RX.RECVACK"
  | .outRd _ => "OUT.RD"
  | .outHdr => "OUT.HDR"
  | .seqNext => "SEQ.NEXT"
  | .seqRd => "SEQ.RD"
  | .lsRd _ => "LS.RD"
  | .cfgSetaddr _ => "CFG.SETADDR"
  | .cfgRdaddr => "CFG.RDADDR"
  | .cntRdbad => "CNT.RDBAD"
  | .cntRdgood => "CNT.RDGOOD"
  | .fltRd => "FLT.RD"

/-- An operand as a byte, if it is one (R71). -/
def operandByte (n : Nat) : Option Byte := if n < 256 then some (BitVec.ofNat 8 n) else none

/-- A promisc operand: 0 or 1 (R71, R73). -/
def operandBit : Nat → Option Bool
  | 0 => some false
  | 1 => some true
  | _ => none

/-- A sequence operand: 0 to 127 (R73). -/
def operandSeq (n : Nat) : Option Byte := if n < 128 then some (BitVec.ofNat 8 n) else none

/-- The command that a mnemonic with operands writes, if any (R73, R82). -/
def commandOf (mnemonic : List Char) (ops : List Nat) : Option Instr :=
  match opcodeTable.find? (fun r => r.mnemonic.toList == mnemonic), ops with
  | none, _ => none
  | some r, ops =>
    match r.command { op := 0, fn := 0, a := 0, b := 0, c := 0 }, ops with
    | .crcUpd _, [x] => do return .crcUpd (← operandByte x)
    | .txbWr _ _, [x, y] => do return .txbWr (← operandByte x) (← operandByte y)
    | .txSend _, [x] => do return .txSend (← operandByte x)
    | .txSendto _ _, [x, y] => do return .txSendto (← operandByte x) (← operandByte y)
    | .txSendseq _ _ _, [x, y, z] => do return .txSendseq (← operandByte x) (← operandByte y) (← operandByte z)
    | .rxRecv _, [x] => do return .rxRecv (← operandByte x)
    | .rxRecvfrom _ _, [x, y] => do return .rxRecvfrom (← operandByte x) (← operandBit y)
    | .rxRecvrel _, [x] => do return .rxRecvrel (← operandByte x)
    | .rxRecvack _ _, [x, y] => do return .rxRecvack (← operandByte x) (← operandSeq y)
    | .outRd _, [x] => do return .outRd (← operandByte x)
    | .lsRd _, [x] => do return .lsRd (← operandByte x)
    | .cfgSetaddr _, [x] => do return .cfgSetaddr (← operandByte x)
    | i, [] => if operandsOf i = [] then some i else none
    | _, _ => none

/-- The value of a digit in base 10 or 16 (R82). -/
def digitValue (base : Nat) (c : Char) : Option Nat :=
  let n := c.toNat
  let v := if 48 ≤ n ∧ n ≤ 57 then n - 48 else if 97 ≤ n ∧ n ≤ 102 then n - 87 else if 65 ≤ n ∧ n ≤ 70 then n - 55 else base
  if v < base then some v else none

/-- A non-empty digit string's value (R82). -/
def digitsValue (base : Nat) : List Char → Option Nat
  | [] => none
  | cs => cs.foldl (fun acc c => do return base * (← acc) + (← digitValue base c)) (some 0)

/-- An operand: decimal, or hexadecimal after 0x (R82). -/
def readOperand : List Char → Option Nat
  | '0' :: 'x' :: cs => digitsValue 16 cs
  | cs => digitsValue 10 cs

/-- The line without its comment, which runs from a semicolon on (R82). -/
def dropComment (line : List Char) : List Char := line.takeWhile (· != ';')

/-- Split at a separator (R82). -/
def splitAtChar (sep : Char) : List Char → List (List Char)
  | [] => [[]]
  | c :: cs =>
    match splitAtChar sep cs with
    | [] => [[c]]
    | part :: parts => if c = sep then [] :: part :: parts else (c :: part) :: parts

/-- A text without the spaces around it. -/
def trimSpaces (cs : List Char) : List Char := ((cs.dropWhile (· == ' ')).reverse.dropWhile (· == ' ')).reverse

/-- A line of assembler text as a command: the mnemonic, then the operands separated by commas; spaces around an operand do
not count (R82, log entry 24). -/
def assembleLine (line : List Char) : Option Instr :=
  let text := trimSpaces (dropComment line)
  let mnemonic := text.takeWhile (· != ' ')
  let rest := trimSpaces (text.dropWhile (· != ' '))
  if rest = [] then commandOf mnemonic []
  else do commandOf mnemonic (← (splitAtChar ',' rest).mapM (fun part => readOperand (trimSpaces part)))

/-- The pseudo-instructions (R83). -/
inductive Pseudo where
  /-- TXB.LOAD s. -/
  | txbLoad (bytes : List Byte)
  /-- CRC.OVER s. -/
  | crcOver (bytes : List Byte)
  /-- TX.ACK dest, seq. -/
  | txAck (dest seq : Byte)
  deriving DecidableEq, Repr

/-- When a pseudo-instruction may be written: |s| ≤ MAX_PAYLOAD for TXB.LOAD, seq ≤ 127 for TX.ACK (R83). -/
def Pseudo.wellFormed (p : Params) : Pseudo → Bool
  | .txbLoad bytes => decide (bytes.length ≤ p.maxPayload)
  | .crcOver _ => true
  | .txAck _ seq => decide (seq.toNat ≤ 127)

/-- The TXB.WR commands for the cells from `i` on (R83). -/
def loadFrom : Nat → List Byte → List Instr
  | _, [] => []
  | i, b :: bs => .txbWr (BitVec.ofNat 8 i) b :: loadFrom (i + 1) bs

/-- What a pseudo-instruction expands to (R83). -/
def Pseudo.expand : Pseudo → List Instr
  | .txbLoad bytes => loadFrom 0 bytes
  | .crcOver bytes => .crcInit :: bytes.map .crcUpd
  | .txAck dest seq => [.txSendseq 0 dest (seq ||| 0x80#8)]

end Sys2Proof.Machine
end

