-- ==== Sys2Proof/Machine/Link.lean ====
section
/-! DEFINITION. Several nodes on one lossless loopback link, each with its private state (spec 60_exceptions.md R231;
10_state.md R42). It stands beside the core, which is one node (log entry 20). -/

namespace Sys2Proof.Machine

/-- Node `k` of a net hands every byte of its TXS to the RXQ of every other node, in order and unchanged (R231). -/
def linkDeliver (k : Nat) (bytes : List Byte) (nodes : List State) : List State :=
  nodes.mapIdx fun j n => if j = k then n.consume bytes.length else n.arrive bytes

/-- Node `k` makes one step, and the lossless loopback then delivers what it has in TXS before any node's next step (R231).
A number that is no node's changes nothing. -/
def linkStep (k : Nat) (nodes : List State) : List State :=
  match nodes[k]? with
  | none => nodes
  | some n =>
    match step n with
    | .next n' => linkDeliver k n'.txs (nodes.set k n')
    | .fault _ | .refused _ => nodes

end Sys2Proof.Machine
end

