-- ==== Sys2Proof/Machine/Run.lean ====
section
/-! DEFINITION. Infinite runs of a node in surroundings that never end, and the premises under which the host's loops end
(spec 10_state.md R22, R40; 46_host.md R207, R212; 60_exceptions.md R231). -/

namespace Sys2Proof.Machine

/-- What happens around a node before one of its steps: bytes arrive, bytes of TXS are consumed, the host's clock advances,
and the host receives new requests (R22, R40, R207). -/
structure Surroundings where
  arrives : List Byte
  consumes : Nat
  ms : Nat
  asks : List Event
  deriving DecidableEq, Repr

/-- Surroundings in which nothing happens. -/
def Surroundings.quiet : Surroundings := { arrives := [], consumes := 0, ms := 0, asks := [] }

/-- The node after what happens around it. Requests wait at the agenda's end; of the events that may be asked for, only the
host's requests count (log entry 11). -/
def State.surround (s : State) (e : Surroundings) : State :=
  { (s.arrive e.arrives).consume e.consumes with
    clock := s.clock + e.ms, agenda := s.agenda ++ e.asks.filter Event.needsIdleHost }

/-- The state after a step, or the state itself where the step stops (none does). -/
def State.steps (s : State) : State :=
  match step s with
  | .next t => t
  | .fault _ | .refused _ => s

/-- The run from `s` in the given surroundings: before its step `n` the node sees `env n`. Every schedule of arrivals and clock
readings is some `env`, one that goes on for ever included (R207, R212, R231). -/
def runState (env : Nat → Surroundings) (s : State) : Nat → State
  | 0 => s
  | n + 1 => ((runState env s n).surround (env n)).steps

/-- R207's fairness premise: along the run, now() eventually exceeds every bound. -/
def ClockExceedsEveryBound (env : Nat → Surroundings) (s : State) : Prop :=
  ∀ bound, ∃ n, bound < (runState env s n).clock

/-- R212's premise: the environment appends finitely often. -/
def AppendsFinitelyOften (env : Nat → Surroundings) : Prop :=
  ∃ n, ∀ m, n ≤ m → (env m).arrives = []

/-- The host is in a call of host_sendToWait (R206). -/
def HostTask.isSendToWait : HostTask → Bool
  | .seqNext _ | .load (.reliable _) _ _ | .attempt _ _ | .transmitted _ _ _ | .polled _ _ _ => true
  | .idle | .load .base _ _ | .load (.addressed _) _ _ | .sent | .receiving _ | .reading _ _ _ _ | .header _ _ | .waiting =>
    false

/-- The host is in a call of a receive procedure (R203, R204, R205, R208). -/
def HostTask.isReceive : HostTask → Bool
  | .receiving _ | .reading _ _ _ _ | .header _ _ => true
  | .idle | .seqNext _ | .load _ _ _ | .sent | .attempt _ _ | .transmitted _ _ _ | .polled _ _ _ | .waiting => false

/-- The host's procedure ends in the run: at some step no procedure is in progress. -/
def ProcedureEnds (env : Nat → Surroundings) (s : State) : Prop := ∃ n, (runState env s n).task = .idle

end Sys2Proof.Machine
end

