-- ==== Sys2Proof/Safety.lean ====
section
/-! DEFINITION. The invariants of the block and the host, what counts as a faulted run, and the words in which claims speak of
encodings and of families of commands (spec 10_state.md R43; 60_exceptions.md R223; 46_host.md R206, R211; 30_encoding.md R76). -/

namespace Sys2Proof.Machine

/-- The invariants of the block (R43), with the parameters in their legal ranges (R7, R11), the counters in CNT_W bits (R28,
R29), and TXBUF canonical with every written cell in 0..MAX_PAYLOAD−1 (R30). SEQ ≤ 127 and every LASTSEEN entry ≤ 127 hold by
their types. -/
structure State.Inv (s : State) : Prop where
  params_legal : s.params.Legal
  rxcount_le : s.rxcount ≤ s.params.maxFrameLen
  rx_window : ∀ len rest, s.rxbuf = len :: rest →
    minLen ≤ len.toNat ∧ len.toNat ≤ s.params.maxFrameLen ∧ s.rxcount ≤ len.toNat
  outlen_le : s.outlen ≤ s.params.maxPayload
  local_ne : s.localAddr ≠ broadcast
  txbuf_wf : s.txbuf.wf
  txbuf_range : ∀ c ∈ s.txbuf, c.1 < s.params.maxPayload
  badcnt_lt : s.badcnt.toNat < 2 ^ s.params.cntW
  goodcnt_lt : s.goodcnt.toNat < 2 ^ s.params.cntW

/-- A host_sendToWait job whose payload fits the reliable layer (R206). -/
def WaitJob.fits (job : WaitJob) (p : Params) : Prop := job.payload.length ≤ p.maxPayloadRel

/-- The payload limit of what the host transmits (R201, R202, R206). -/
def HostSend.limit (what : HostSend) (p : Params) : Nat :=
  match what with
  | .base => p.maxPayload
  | .addressed _ => p.maxPayloadAddr
  | .reliable _ => p.maxPayloadRel

/-- The invariant of the host's procedures: payloads fit their layer; at most RETRIES + 1 attempts, numbered from 0; an
attempt's t0 lies in the past; no poll after a broadcast; reads stay below the count (R203, R206, R211). -/
def State.HostInv (s : State) : Prop :=
  match s.task with
  | .idle | .sent | .receiving _ | .header _ _ | .waiting => True
  | .seqNext job => job.fits s.params
  | .load what payload next => payload.length ≤ what.limit s.params ∧ next ≤ payload.length
  | .attempt job k => k ≤ job.retries + 1 ∧ (0 < k → job.dest ≠ broadcast)
  | .transmitted job k t0 => k ≤ job.retries ∧ t0 ≤ s.clock ∧ (0 < k → job.dest ≠ broadcast)
  | .polled job k t0 => k ≤ job.retries ∧ t0 ≤ s.clock ∧ job.dest ≠ broadcast
  | .reading _ _ total bytes => bytes.length < total

/-- A run whose state has FAULT set is a faulted run; claims about transmitted data take its absence as a premise (R223). -/
def State.Faulted (s : State) : Prop := s.faultFlag = true

/-- An (op, fn) pair that no row of the opcode map has (R76). -/
def UnassignedOpcode (f : Fields) : Prop :=
  (f.op.toNat = 0 ∧ 1 ≤ f.fn.toNat) ∨ (f.op.toNat = 1 ∧ 5 ≤ f.fn.toNat) ∨ (f.op.toNat = 2 ∧ 4 ≤ f.fn.toNat) ∨
  (f.op.toNat = 3 ∧ 7 ≤ f.fn.toNat) ∨ (f.op.toNat = 4 ∧ 8 ≤ f.fn.toNat) ∨ 5 ≤ f.op.toNat

/-- A reserved-zero operand bit of the assigned (op, fn) pair is set, read from the operand columns of the opcode map (R72,
R73). -/
def ReservedBitSet (f : Fields) : Prop :=
  match f.op.toNat, f.fn.toNat with
  | 1, 1 | 2, 1 | 3, 1 | 3, 3 | 3, 5 | 4, 2 | 4, 3 => f.b ≠ 0#8 ∨ f.c ≠ 0#8
  | 2, 0 | 2, 2 => f.c ≠ 0#8
  | 2, 3 => False
  | 3, 2 => 2 ≤ f.b.toNat ∨ f.c ≠ 0#8
  | 3, 4 => f.a ≠ 0#8 ∨ 128 ≤ f.c.toNat
  | _, _ => f.a ≠ 0#8 ∨ f.b ≠ 0#8 ∨ f.c ≠ 0#8

/-- The commands that transmit TXBUF (R50). -/
def transmits : Instr → Bool
  | .txSend _ | .txSendto _ _ | .txSendseq _ _ _ => true
  | .nop | .crcInit | .crcUpd _ | .crcRdfcs | .crcRdraw | .crcChk | .txbWr _ _ | .rxAvail | .rxRecv _ | .rxRecvfrom _ _
  | .rxRecvrel _ | .rxRecvack _ _ | .outRd _ | .outHdr | .seqNext | .seqRd | .lsRd _ | .cfgSetaddr _ | .cfgRdaddr
  | .cntRdbad | .cntRdgood | .fltRd => false

/-- The commands that may consume a frame (R125). -/
def receives : Instr → Bool
  | .rxRecv _ | .rxRecvfrom _ _ | .rxRecvrel _ | .rxRecvack _ _ => true
  | .nop | .crcInit | .crcUpd _ | .crcRdfcs | .crcRdraw | .crcChk | .txbWr _ _ | .txSend _ | .txSendto _ _
  | .txSendseq _ _ _ | .rxAvail | .outRd _ | .outHdr | .seqNext | .seqRd | .lsRd _ | .cfgSetaddr _ | .cfgRdaddr
  | .cntRdbad | .cntRdgood | .fltRd => false

/-- The read commands of R63. -/
def onlyReads : Instr → Bool
  | .crcRdfcs | .crcRdraw | .crcChk | .outRd _ | .outHdr | .seqRd | .lsRd _ | .cfgRdaddr | .cntRdbad | .cntRdgood
  | .fltRd | .nop => true
  | .crcInit | .crcUpd _ | .txbWr _ _ | .txSend _ | .txSendto _ _ | .txSendseq _ _ _ | .rxAvail | .rxRecv _
  | .rxRecvfrom _ _ | .rxRecvrel _ | .rxRecvack _ _ | .seqNext | .cfgSetaddr _ => false

/-- The payload `p` lies in TXBUF's cells 0..|p|−1 (R30). -/
def State.Holds (s : State) (p : List Byte) : Prop := ∀ i, i < p.length → s.txBufRead i = p[i]?

end Sys2Proof.Machine
end

