-- ==== Sys2Proof/Certificates/Slice0/Obligations.lean ====
section
/-! DEFINITION. The statements for the provers. Each docstring names the rules it formalises. -/

open Sys2Proof Sys2Proof.Machine

/-! ### Encoding (30_encoding.md) -/

/-- Decoding the word of a well-formed command gives the command back (R70 to R73). -/
def Obligations.DecodeInvertsEncode : Prop :=
  ∀ i : Instr, i.WellFormed → decode (encode i) = .command i

/-- A word that decodes to a command is that command's word, and the command is well-formed: no bit of a word is dropped
(R72, R73). -/
def Obligations.EncodeInvertsDecode : Prop :=
  ∀ (w : Word) (i : Instr), decode w = .command i → i.WellFormed ∧ encode i = w

/-- The opcode map, row by row: a word decodes to a command exactly when it has that row's op and fn, its operands in their
fields, and every reserved-zero bit 0 (R73). -/
def Obligations.EveryRowDecodes : Prop :=
  ∀ (w : Word) (x y z : Byte) (p : Bool),
    (decode w = .command .nop ↔ w = pack 0 0 0 0 0) ∧
    (decode w = .command .crcInit ↔ w = pack 1 0 0 0 0) ∧
    (decode w = .command (.crcUpd x) ↔ w = pack 1 1 x 0 0) ∧
    (decode w = .command .crcRdfcs ↔ w = pack 1 2 0 0 0) ∧
    (decode w = .command .crcRdraw ↔ w = pack 1 3 0 0 0) ∧
    (decode w = .command .crcChk ↔ w = pack 1 4 0 0 0) ∧
    (decode w = .command (.txbWr x y) ↔ w = pack 2 0 x y 0) ∧
    (decode w = .command (.txSend x) ↔ w = pack 2 1 x 0 0) ∧
    (decode w = .command (.txSendto x y) ↔ w = pack 2 2 x y 0) ∧
    (decode w = .command (.txSendseq x y z) ↔ w = pack 2 3 x y z) ∧
    (decode w = .command .rxAvail ↔ w = pack 3 0 0 0 0) ∧
    (decode w = .command (.rxRecv x) ↔ w = pack 3 1 x 0 0) ∧
    (decode w = .command (.rxRecvfrom x p) ↔ w = pack 3 2 x (if p then 1 else 0) 0) ∧
    (decode w = .command (.rxRecvrel x) ↔ w = pack 3 3 x 0 0) ∧
    (decode w = .command (.rxRecvack x y) ↔ y.toNat < 128 ∧ w = pack 3 4 0 x y) ∧
    (decode w = .command (.outRd x) ↔ w = pack 3 5 x 0 0) ∧
    (decode w = .command .outHdr ↔ w = pack 3 6 0 0 0) ∧
    (decode w = .command .seqNext ↔ w = pack 4 0 0 0 0) ∧
    (decode w = .command .seqRd ↔ w = pack 4 1 0 0 0) ∧
    (decode w = .command (.lsRd x) ↔ w = pack 4 2 x 0 0) ∧
    (decode w = .command (.cfgSetaddr x) ↔ w = pack 4 3 x 0 0) ∧
    (decode w = .command .cfgRdaddr ↔ w = pack 4 4 0 0 0) ∧
    (decode w = .command .cntRdbad ↔ w = pack 4 5 0 0 0) ∧
    (decode w = .command .cntRdgood ↔ w = pack 4 6 0 0 0) ∧
    (decode w = .command .fltRd ↔ w = pack 4 7 0 0 0)

/-- Decoding is total, selects the one row that matches, and answers ILLEGAL where none does; at most one row matches a word,
since every mask covers bits 31:24 and the rows' (op, fn) pairs are distinct (R75). -/
def Obligations.DecodeSelectsTheOneMatchingRow : Prop :=
  (∀ w : Word,
    ((∃ r ∈ opcodeTable, rowMatches w r = true ∧ decode w = .command (r.command (fields w))) ∨
      ((∀ r ∈ opcodeTable, rowMatches w r = false) ∧ ∃ k, decode w = .illegal k)) ∧
    ∀ r ∈ opcodeTable, ∀ r' ∈ opcodeTable, rowMatches w r = true → rowMatches w r' = true → r = r') ∧
  (∀ r ∈ opcodeTable, r.mask.extractLsb' 24 8 = 0xFF#8) ∧
  (opcodeTable.map (fun r => r.pattern.extractLsb' 24 8)).Nodup

/-- The reserved encodings are exactly the ILLEGAL words: unassigned (op, fn) pairs, and assigned pairs with a reserved-zero
operand bit set (R76, with the operand columns of R73). That the decoder tells the two kinds apart by name is the model's
choice (log entry 22). -/
def Obligations.IllegalExactlyTheReservedEncodings : Prop :=
  ∀ w : Word,
    (decode w = .illegal .unassignedOpcode ↔ UnassignedOpcode (fields w)) ∧
    (decode w = .illegal .reservedBitSet ↔ ¬ UnassignedOpcode (fields w) ∧ ReservedBitSet (fields w))

/-- A few words written out from R73 and R82 decode to the commands they stand for, and two reserved encodings of R76 decode to
ILLEGAL; the names of the two kinds of ILLEGAL are the model's choice (log entry 22). -/
def Obligations.ExampleWordsDecode : Prop :=
  decode 0x11310000#32 = .command (.crcUpd 0x31#8) ∧
  decode 0x20024100#32 = .command (.txbWr 2#8 0x41#8) ∧
  decode 0x23050C01#32 = .command (.txSendseq 5#8 12#8 1#8) ∧
  decode 0x32100100#32 = .command (.rxRecvfrom 16#8 true) ∧
  decode 0x34000C01#32 = .command (.rxRecvack 12#8 1#8) ∧
  decode 0x43FE0000#32 = .command (.cfgSetaddr 254#8) ∧
  decode 0x34000C81#32 = .illegal .reservedBitSet ∧
  decode 0x48000000#32 = .illegal .unassignedOpcode

/-- A step with a presented word takes the word and executes it, and a word that decodes to a command runs exactly that
command; host and environment do not move in that step (R54, R75; that the word stands in the state is the model's choice, log
entry 2). -/
def Obligations.StepRunsTheDecodedCommand : Prop :=
  ∀ (s : State) (w : Word), s.cmd = some w →
    step s = { s with cmd := none }.execWord w ∧
    ∀ i : Instr, decode w = .command i → step s = exec i { s with cmd := none }

/-- An ILLEGAL word changes no state except the response: FAULT, RXQ and TXS stay (R80). -/
def Obligations.IllegalWordOnlyResponds : Prop :=
  ∀ (s : State) (w : Word) (k : Illegal), decode w = .illegal k →
    s.execWord w = .next { s with status := .illegal, data := 0#16 }

/-! ### CRC unit (40_crc.md) -/

/-- The byte-at-a-time form computes the same function (R109). -/
def Obligations.CrcByteFormAgrees : Prop :=
  ∀ (c : Half) (b : Byte), crcUpdateByteForm c b = crcUpdate c b

/-- The FCS rules: a frame ends with the complement of the CRC of what precedes it, low byte first; a byte sequence is valid
exactly when its CRC is 0xF0B8; and the residue law: any sequence followed by the two bytes of its FCS is valid (R103). -/
def Obligations.ResidueLaw : Prop :=
  (∀ body : List Byte, frameOf body = frameHead body ++
    [(~~~ crcOver (frameHead body)).extractLsb' 0 8, (~~~ crcOver (frameHead body)).extractLsb' 8 8]) ∧
  (∀ f : List Byte, goodFrame f = true ↔ crcOver f = 0xF0B8#16) ∧
  ∀ p : List Byte,
    crcOver (p ++ [(~~~ crcOver p).extractLsb' 0 8, (~~~ crcOver p).extractLsb' 8 8]) = 0xF0B8#16

/-- CRC.INIT and CRC.UPD, with the corner values of R105 (R104, R105). -/
def Obligations.CrcInitAndUpdateResults : Prop :=
  (∀ s : State, exec .crcInit s = .next { s with crc := 0xFFFF#16, status := .ok, data := 0#16 }) ∧
  (∀ (s : State) (b : Byte),
    exec (.crcUpd b) s = .next { s with crc := crcUpdate s.crc b, status := .ok, data := crcUpdate s.crc b }) ∧
  crcUpdate 0x0000#16 0x00#8 = 0x0000#16 ∧ crcUpdate 0xFFFF#16 0xFF#8 = 0x00FF#16 ∧
  crcUpdate 0xFFFF#16 0x31#8 = 0x2F8D#16 ∧
  ∃ c x y, crcUpdate (crcUpdate c x) y ≠ crcUpdate (crcUpdate c y) x

/-- CRC.RDFCS, CRC.RDRAW and CRC.CHK read and change only the response; DATA[7:0] of CRC.RDFCS is the byte sent first
(R106, R107, R108). -/
def Obligations.CrcReadResults : Prop :=
  ∀ s : State,
    exec .crcRdfcs s = .next { s with status := .ok, data := ~~~ s.crc } ∧
    fcsBytes s.crc = [(~~~ s.crc).extractLsb' 0 8, (~~~ s.crc).extractLsb' 8 8] ∧
    exec .crcRdraw s = .next { s with status := .ok, data := s.crc } ∧
    exec .crcChk s = .next { s with status := .ok, data := if s.crc = 0xF0B8#16 then 1#16 else 0#16 }

/-! ### Framer: transmit (41_framer.md, 42_addressed.md, 43_reliable.md) -/

/-- TXB.WR writes its one cell and no other, and answers RANGE outside 0..MAX_PAYLOAD−1 (R121). It keeps TXBUF's sorted list
canonical, a form that is the model's choice (log entry 7). -/
def Obligations.TxbWrWritesOneCell : Prop :=
  ∀ (s : State) (i b : Byte),
    (s.params.maxFrameLen - 3 ≤ i.toNat →
      exec (.txbWr i b) s = .next { s with status := .range, data := 0#16 }) ∧
    (i.toNat < s.params.maxFrameLen - 3 → ∃ m : Memory,
      exec (.txbWr i b) s = .next { s with txbuf := m, status := .ok, data := 0#16 } ∧
      m.read i.toNat = some b ∧ (∀ j, j ≠ i.toNat → m.read j = s.txbuf.read j) ∧ (s.txbuf.wf → m.wf))

/-- tx_gather answers FAULT exactly when one of the first L cells is unwritten, and otherwise those cells' bytes (R129). -/
def Obligations.GatherReadsExactlyWrittenCells : Prop :=
  ∀ (s : State) (len : Nat),
    (s.txGather len = none ↔ ∃ i, i < len ∧ s.txBufRead i = none) ∧
    (∀ p : List Byte, s.txGather len = some p ↔ p.length = len ∧ s.Holds p)

/-- emit_frame appends LEN, body, FCS_LO, FCS_HI to TXS with LEN = |body| + 3 and leaves CRC before the complement; the frame
validates, and its body is read back from it (R122; R58, R103). -/
def Obligations.EmittedFramesValidate : Prop :=
  ∀ (s : State) (body : List Byte), ∃ c : Half,
    c = crcOver (BitVec.ofNat 8 (body.length + 3) :: body) ∧
    s.emitFrame body = { s with
      crc := c
      txs := s.txs ++
        BitVec.ofNat 8 (body.length + 3) :: (body ++ [(~~~ c).extractLsb' 0 8, (~~~ c).extractLsb' 8 8]) } ∧
    (s.emitFrame body).txs = s.txs ++ frameOf body ∧
    goodFrame (frameOf body) = true ∧ frameBody (frameOf body) = body

/-- TX.SEND: OVERSIZE first, then FAULT_UNWRITTEN with FAULT set and nothing transmitted, else one frame; a length of 0 emits
03 E3 C2 (R123). -/
def Obligations.TxSendResults : Prop :=
  ∀ s : State, s.params.Legal →
    (∀ len : Byte, s.params.maxFrameLen - 3 < len.toNat →
      exec (.txSend len) s = .next { s with status := .oversize, data := 0#16 }) ∧
    (∀ len : Byte, len.toNat ≤ s.params.maxFrameLen - 3 → (∃ i, i < len.toNat ∧ s.txBufRead i = none) →
      exec (.txSend len) s = .next { s with faultFlag := true, status := .faultUnwritten, data := 0#16 }) ∧
    (∀ (len : Byte) (p : List Byte), len.toNat ≤ s.params.maxFrameLen - 3 → p.length = len.toNat → s.Holds p →
      exec (.txSend len) s = .next { s with
        crc := crcOver (frameHead p), txs := s.txs ++ frameOf p, status := .ok,
        data := BitVec.ofNat 16 (p.length + 3) }) ∧
    exec (.txSend 0#8) s = .next { s with
      crc := 0x3D1C#16, txs := s.txs ++ [0x03#8, 0xE3#8, 0xC2#8], status := .ok, data := 3#16 }

/-- TX.SENDTO: as TX.SEND, with MAX_PAYLOAD − 2 and the header [dest, LOCAL] (R141). -/
def Obligations.TxSendtoResults : Prop :=
  ∀ (s : State) (dest : Byte), s.params.Legal →
    (∀ len : Byte, s.params.maxFrameLen - 5 < len.toNat →
      exec (.txSendto len dest) s = .next { s with status := .oversize, data := 0#16 }) ∧
    (∀ len : Byte, len.toNat ≤ s.params.maxFrameLen - 5 → (∃ i, i < len.toNat ∧ s.txBufRead i = none) →
      exec (.txSendto len dest) s = .next { s with faultFlag := true, status := .faultUnwritten, data := 0#16 }) ∧
    (∀ (len : Byte) (p : List Byte), len.toNat ≤ s.params.maxFrameLen - 5 → p.length = len.toNat → s.Holds p →
      exec (.txSendto len dest) s = .next { s with
        crc := crcOver (frameHead (dest :: s.localAddr :: p)), txs := s.txs ++ frameOf (dest :: s.localAddr :: p),
        status := .ok, data := BitVec.ofNat 16 (p.length + 5) })

/-- TX.SENDSEQ: as TX.SEND, with MAX_PAYLOAD − 3 and the header [dest, LOCAL, flag]; SEQ is not written (R163). -/
def Obligations.TxSendseqResults : Prop :=
  ∀ (s : State) (dest flag : Byte), s.params.Legal →
    (∀ len : Byte, s.params.maxFrameLen - 6 < len.toNat →
      exec (.txSendseq len dest flag) s = .next { s with status := .oversize, data := 0#16 }) ∧
    (∀ len : Byte, len.toNat ≤ s.params.maxFrameLen - 6 → (∃ i, i < len.toNat ∧ s.txBufRead i = none) →
      exec (.txSendseq len dest flag) s = .next { s with faultFlag := true, status := .faultUnwritten, data := 0#16 }) ∧
    (∀ (len : Byte) (p : List Byte), len.toNat ≤ s.params.maxFrameLen - 6 → p.length = len.toNat → s.Holds p →
      exec (.txSendseq len dest flag) s = .next { s with
        crc := crcOver (frameHead (dest :: s.localAddr :: flag :: p)),
        txs := s.txs ++ frameOf (dest :: s.localAddr :: flag :: p),
        status := .ok, data := BitVec.ofNat 16 (p.length + 6) })

/-! ### Framer: receive (41_framer.md) -/

/-- The availability check on every state of the invariant: a frame that RXQ completes is buffered and RXQ keeps the rest; a
partial frame takes all of RXQ; an implausible first byte is counted modulo 2^CNT_W and all pending input is discarded; with
nothing pending nothing changes (R124, R130). -/
def Obligations.RxPullResults : Prop :=
  ∀ s : State,
    (∀ (len : Byte) (tail post rest : List Byte), s.rxq = post ++ rest → s.rxbuf ++ post = len :: tail →
      (len :: tail).length = len.toNat → 4 ≤ len.toNat → len.toNat ≤ s.params.maxFrameLen →
      s.rxPull = { s with rxbuf := len :: tail, rxq := rest } ∧ s.rxPull.complete = true) ∧
    (∀ (len : Byte) (tail : List Byte), s.rxbuf ++ s.rxq = len :: tail →
      (len :: tail).length < len.toNat → 4 ≤ len.toNat → len.toNat ≤ s.params.maxFrameLen →
      s.rxPull = { s with rxbuf := len :: tail, rxq := [] } ∧ s.rxPull.complete = false) ∧
    (∀ (v : Byte) (q : List Byte), s.rxbuf = [] → s.rxq = v :: q → ¬ (4 ≤ v.toNat ∧ v.toNat ≤ s.params.maxFrameLen) →
      s.rxPull = { s with
        badcnt := BitVec.ofNat 16 ((s.badcnt.toNat + 1) % 2 ^ s.params.cntW), rxq := [] } ∧
      s.rxPull.complete = false) ∧
    (s.rxbuf = [] → s.rxq = [] → s.rxPull = s ∧ s.rxPull.complete = false)

/-- Every state of the block's invariant falls under one of RxPullResults's cases: the frame in RXBUF and RXQ is complete, or
partial, or its first byte is implausible, or nothing is there (R124, R43). -/
def Obligations.RxPullCasesAreExhaustive : Prop :=
  ∀ s : State, s.Inv →
    (∃ (len : Byte) (tail post rest : List Byte), s.rxq = post ++ rest ∧ s.rxbuf ++ post = len :: tail ∧
      (len :: tail).length = len.toNat ∧ 4 ≤ len.toNat ∧ len.toNat ≤ s.params.maxFrameLen) ∨
    (∃ (len : Byte) (tail : List Byte), s.rxbuf ++ s.rxq = len :: tail ∧
      (len :: tail).length < len.toNat ∧ 4 ≤ len.toNat ∧ len.toNat ≤ s.params.maxFrameLen) ∨
    (∃ (v : Byte) (q : List Byte), s.rxbuf = [] ∧ s.rxq = v :: q ∧ ¬ (4 ≤ v.toNat ∧ v.toNat ≤ s.params.maxFrameLen)) ∨
    (s.rxbuf = [] ∧ s.rxq = [])

/-- rx_take: the complete buffer is the frame; CRC keeps its residue, GOODCNT counts it modulo 2^CNT_W exactly when the
residue is 0xF0B8, and the buffer becomes empty; the body is the n − 3 bytes after LEN (R125). -/
def Obligations.RxTakeResults : Prop :=
  ∀ s : State, s.complete = true →
    s.bufferedFrame = s.rxbuf ∧ frameBody s.rxbuf = (s.rxbuf.drop 1).take (s.rxbuf.length - 3) ∧
    (crcOver s.rxbuf = 0xF0B8#16 → goodFrame s.rxbuf = true ∧ s.rxTake = { s with
      crc := 0xF0B8#16, goodcnt := BitVec.ofNat 16 ((s.goodcnt.toNat + 1) % 2 ^ s.params.cntW), rxbuf := [] }) ∧
    (crcOver s.rxbuf ≠ 0xF0B8#16 → goodFrame s.rxbuf = false ∧ s.rxTake = { s with
      crc := crcOver s.rxbuf, rxbuf := [] })

/-- RX.AVAIL runs the availability check and reports it; on a complete buffer it pulls nothing, so it can be repeated (R126). -/
def Obligations.RxAvailResults : Prop :=
  ∀ s : State,
    exec .rxAvail s = .next { s.rxPull with status := .ok, data := if s.rxPull.complete then 1#16 else 0#16 } ∧
    (s.complete = true → exec .rxAvail s = .next { s with status := .ok, data := 1#16 })

/-- RX.RECV: NOFRAME after the pull; otherwise the frame is consumed and its body, cut to the capacity, is in OUTBUF on OK and
on BADFCS alike (R127). -/
def Obligations.RxRecvResults : Prop :=
  ∀ (s : State) (cap : Byte),
    (s.rxPull.complete = false → exec (.rxRecv cap) s = .next { s.rxPull with status := .noFrame, data := 0#16 }) ∧
    (s.rxPull.complete = true →
      exec (.rxRecv cap) s = .next { s.rxPull.rxTake with
        outbuf := (frameBody s.rxPull.rxbuf).take cap.toNat
        status := if crcOver s.rxPull.rxbuf = 0xF0B8#16 then .ok else .badFcs
        data := BitVec.ofNat 16 (min cap.toNat (frameBody s.rxPull.rxbuf).length) })

/-- OUT.RD reads OUTBUF below OUTLEN and answers RANGE above, changing only the response (R128). -/
def Obligations.OutRdResults : Prop :=
  ∀ (s : State) (i : Byte),
    (∀ h : i.toNat < s.outbuf.length,
      exec (.outRd i) s = .next { s with status := .ok, data := BitVec.ofNat 16 (s.outbuf[i.toNat]'h).toNat }) ∧
    (s.outbuf.length ≤ i.toNat → exec (.outRd i) s = .next { s with status := .range, data := 0#16 })

/-! ### Addressed layer (42_addressed.md) -/

/-- RX.RECVFROM: NOFRAME, BADFCS, SHORT, FILTERED or delivery with both addresses, in this order; every outcome after the pull
keeps what rx_take did, GOODCNT included (R142, R143, R145, R147). -/
def Obligations.RxRecvfromResults : Prop :=
  ∀ (s : State) (cap : Byte) (promisc : Bool),
    (s.rxPull.complete = false →
      exec (.rxRecvfrom cap promisc) s = .next { s.rxPull with status := .noFrame, data := 0#16 }) ∧
    (s.rxPull.complete = true → crcOver s.rxPull.rxbuf ≠ 0xF0B8#16 →
      exec (.rxRecvfrom cap promisc) s = .next { s.rxPull.rxTake with status := .badFcs, data := 0#16 }) ∧
    (s.rxPull.complete = true → crcOver s.rxPull.rxbuf = 0xF0B8#16 →
      ((frameBody s.rxPull.rxbuf).length < 2 →
        exec (.rxRecvfrom cap promisc) s = .next { s.rxPull.rxTake with status := .short, data := 0#16 }) ∧
      (∀ (dest src : Byte) (inner : List Byte), frameBody s.rxPull.rxbuf = dest :: src :: inner →
        (¬ (promisc = true ∨ dest = s.localAddr ∨ dest = 255#8) →
          exec (.rxRecvfrom cap promisc) s = .next { s.rxPull.rxTake with status := .filtered, data := 0#16 }) ∧
        (promisc = true ∨ dest = s.localAddr ∨ dest = 255#8 →
          exec (.rxRecvfrom cap promisc) s = .next { s.rxPull.rxTake with
            outbuf := inner.take cap.toNat, outto := dest, outfrom := src, status := .ok,
            data := BitVec.ofNat 16 (min cap.toNat inner.length) })))

/-- OUT.HDR: DATA is (OUTTO << 8) | OUTFROM: OUTTO in bits 15:8, OUTFROM in bits 7:0 (R144). -/
def Obligations.OutHdrResults : Prop :=
  ∀ s : State, ∃ d : Half, exec .outHdr s = .next { s with status := .ok, data := d } ∧
    d.extractLsb' 8 8 = s.outto ∧ d.extractLsb' 0 8 = s.outfrom

/-! ### Sequence unit (43_reliable.md) -/

/-- SEQ.NEXT, SEQ.RD and LS.RD (R161, R162, R169). -/
def Obligations.SequenceRegisterResults : Prop :=
  ∀ (s : State) (a : Byte),
    exec .seqNext s = .next { s with
      seq := BitVec.ofNat 7 ((s.seq.toNat + 1) % 128), status := .ok,
      data := BitVec.ofNat 16 ((s.seq.toNat + 1) % 128) } ∧
    exec .seqRd s = .next { s with status := .ok, data := BitVec.ofNat 16 s.seq.toNat } ∧
    exec (.lsRd a) s = .next { s with status := .ok, data := BitVec.ofNat 16 (s.lastseen[a.toNat]'a.isLt).toNat }

/-- RX.RECVREL: NOFRAME, BADFCS, SHORT, FILTERED, ACKFRAME, then the acknowledgement of a frame that is not broadcast, then
DUP or delivery (R142, R164, R166, R167). -/
def Obligations.RxRecvrelResults : Prop :=
  ∀ (s : State) (cap : Byte),
    (s.rxPull.complete = false →
      exec (.rxRecvrel cap) s = .next { s.rxPull with status := .noFrame, data := 0#16 }) ∧
    (s.rxPull.complete = true → crcOver s.rxPull.rxbuf ≠ 0xF0B8#16 →
      exec (.rxRecvrel cap) s = .next { s.rxPull.rxTake with status := .badFcs, data := 0#16 }) ∧
    (s.rxPull.complete = true → crcOver s.rxPull.rxbuf = 0xF0B8#16 →
      ((frameBody s.rxPull.rxbuf).length < 3 →
        exec (.rxRecvrel cap) s = .next { s.rxPull.rxTake with status := .short, data := 0#16 }) ∧
      (∀ (dest src flag : Byte) (inner : List Byte), frameBody s.rxPull.rxbuf = dest :: src :: flag :: inner →
        (¬ (dest = s.localAddr ∨ dest = 255#8) →
          exec (.rxRecvrel cap) s = .next { s.rxPull.rxTake with status := .filtered, data := 0#16 }) ∧
        (dest = s.localAddr ∨ dest = 255#8 → flag.getLsbD 7 = true →
          exec (.rxRecvrel cap) s = .next { s.rxPull.rxTake with status := .ackFrame, data := 0#16 }) ∧
        (dest = s.localAddr ∨ dest = 255#8 → flag.getLsbD 7 = false →
          ∀ t : State, t = (if dest = 255#8 then s.rxPull.rxTake else { s.rxPull.rxTake with
            crc := crcOver (frameHead [src, s.localAddr, flag ||| 0x80#8])
            txs := s.txs ++ frameOf [src, s.localAddr, flag ||| 0x80#8] }) →
          ((s.lastseen[src.toNat]'src.isLt).toNat = flag.toNat →
            exec (.rxRecvrel cap) s = .next { t with status := .dup, data := BitVec.ofNat 16 flag.toNat }) ∧
          ((s.lastseen[src.toNat]'src.isLt).toNat ≠ flag.toNat →
            exec (.rxRecvrel cap) s = .next { t with
              lastseen := s.lastseen.set src.toNat (BitVec.ofNat 7 flag.toNat) src.isLt
              outbuf := inner.take cap.toNat, outto := dest, outfrom := src, status := .ok,
              data := BitVec.ofNat 16 (min cap.toNat inner.length) }))))

/-- RX.RECVACK: NOFRAME, BADFCS, SHORT, FILTERED, ACKMATCH or OTHER; nothing is delivered or acknowledged. The awaited sequence
number is c[6:0], so the matching FLAG_SQN byte is c with bit 7 set (R165, R168). -/
def Obligations.RxRecvackResults : Prop :=
  ∀ (s : State) (d t : Byte),
    (s.rxPull.complete = false →
      exec (.rxRecvack d t) s = .next { s.rxPull with status := .noFrame, data := 0#16 }) ∧
    (s.rxPull.complete = true → crcOver s.rxPull.rxbuf ≠ 0xF0B8#16 →
      exec (.rxRecvack d t) s = .next { s.rxPull.rxTake with status := .badFcs, data := 0#16 }) ∧
    (s.rxPull.complete = true → crcOver s.rxPull.rxbuf = 0xF0B8#16 →
      ((frameBody s.rxPull.rxbuf).length < 2 →
        exec (.rxRecvack d t) s = .next { s.rxPull.rxTake with status := .short, data := 0#16 }) ∧
      (∀ (dest src : Byte) (inner : List Byte), frameBody s.rxPull.rxbuf = dest :: src :: inner →
        (¬ (dest = s.localAddr ∨ dest = 255#8) →
          exec (.rxRecvack d t) s = .next { s.rxPull.rxTake with status := .filtered, data := 0#16 }) ∧
        (dest = s.localAddr ∨ dest = 255#8 →
          ((src = d ∧ dest = s.localAddr ∧ ∃ tail, inner = (t ||| 0x80#8) :: tail) →
            exec (.rxRecvack d t) s = .next { s.rxPull.rxTake with
              status := .ackMatch, data := BitVec.ofNat 16 (t.toNat % 128) }) ∧
          (¬ (src = d ∧ dest = s.localAddr ∧ ∃ tail, inner = (t ||| 0x80#8) :: tail) →
            exec (.rxRecvack d t) s = .next { s.rxPull.rxTake with status := .other, data := 0#16 }))))

/-- The acknowledgement frame is six bytes, LEN = 06, DEST = src, SRC = LOCAL, FLAG_SQN = 0x80 | s, FCS_LO, FCS_HI, and it
fits every legal MAX_FRAME_LEN (R166, R174). -/
def Obligations.AcknowledgementFrameLayout : Prop :=
  ∀ (s : State) (src : Byte) (q : BitVec 7), ∃ c : Half,
    c = crcOver [6#8, src, s.localAddr, BitVec.ofNat 8 (128 + q.toNat)] ∧
    s.emitFrame (s.ackBody src q) = { s with
      crc := c
      txs := s.txs ++ [6#8, src, s.localAddr, BitVec.ofNat 8 (128 + q.toNat), (~~~ c).extractLsb' 0 8,
        (~~~ c).extractLsb' 8 8] } ∧
    (s.params.Legal → (frameOf (s.ackBody src q)).length ≤ s.params.maxFrameLen)

/-- RX.RECVREL transmits only for a good, accepted data frame that is not broadcast, one acknowledgement per command; a frame
with the acknowledgement bit is never surfaced by it (R171, R172). -/
def Obligations.OnlyDataFramesAreAcknowledged : Prop :=
  ∀ (s t : State) (cap : Byte), exec (.rxRecvrel cap) s = .next t →
    (t.txs ≠ s.txs → ∃ (src flag : Byte) (inner : List Byte),
      frameBody s.rxPull.rxbuf = s.localAddr :: src :: flag :: inner ∧ s.localAddr ≠ 255#8 ∧
      crcOver s.rxPull.rxbuf = 0xF0B8#16 ∧ flag.getLsbD 7 = false ∧
      t.txs = s.txs ++ frameOf [src, s.localAddr, flag ||| 0x80#8]) ∧
    (t.outbuf ≠ s.outbuf ∨ t.lastseen ≠ s.lastseen → ∃ (dest src flag : Byte) (inner : List Byte),
      frameBody s.rxPull.rxbuf = dest :: src :: flag :: inner ∧ flag.getLsbD 7 = false ∧ t.status = .ok)

/-- The sentinel edge case: LASTSEEN entries start at 0; the first sequence number after reset is 1; 127 is followed by 0; and a good data frame with
sequence number 0 from a sender whose entry is 0 is a duplicate, which is not delivered, while an entry of 127 makes it new
(R161, R170). -/
def Obligations.SequenceWrapMeetsTheSentinel : Prop :=
  (∀ a : Byte, State.reset.lastSeen a = 0#7) ∧
  (∃ t, exec .seqNext State.reset = .next t ∧ t.seq = 1#7) ∧
  (∀ s : State, s.seq = 127#7 → ∃ t, exec .seqNext s = .next t ∧ t.seq = 0#7) ∧
  (∀ (s : State) (cap dest src : Byte) (inner : List Byte), s.rxPull.complete = true →
    crcOver s.rxPull.rxbuf = 0xF0B8#16 → frameBody s.rxPull.rxbuf = dest :: src :: 0#8 :: inner →
    dest = s.localAddr ∨ dest = 255#8 →
    (s.lastSeen src = 0#7 → ∃ t, exec (.rxRecvrel cap) s = .next t ∧ t.status = .dup ∧ t.outbuf = s.outbuf ∧
      t.lastseen = s.lastseen ∧ t.txs = s.txs ++ (if dest = 255#8 then [] else frameOf [src, s.localAddr, 0x80#8])) ∧
    (s.lastSeen src = 127#7 → ∃ t, exec (.rxRecvrel cap) s = .next t ∧ t.status = .ok ∧
      t.outbuf = inner.take cap.toNat ∧ t.lastSeen src = 0#7))

/-! ### Configuration, counters, NOP (44_config.md) -/

/-- CFG.SETADDR and CFG.RDADDR: 255 is refused with RANGE (R181, R182). -/
def Obligations.LocalAddressResults : Prop :=
  ∀ s : State,
    exec (.cfgSetaddr 255#8) s = .next { s with status := .range, data := 0#16 } ∧
    (∀ a : Byte, a ≠ 255#8 →
      exec (.cfgSetaddr a) s = .next { s with localAddr := a, status := .ok, data := 0#16 }) ∧
    exec .cfgRdaddr s = .next { s with status := .ok, data := BitVec.ofNat 16 s.localAddr.toNat }

/-- NOP, CNT.RDBAD, CNT.RDGOOD and FLT.RD change only the response; no command changes BADCNT or GOODCNT but by counting one
event modulo 2^CNT_W, and no command clears FAULT (R180, R183, R184, R185; for every command R28, R29, R37, R186). -/
def Obligations.CounterAndFaultReads : Prop :=
  ∀ s : State,
    exec .nop s = .next { s with status := .ok, data := 0#16 } ∧
    exec .cntRdbad s = .next { s with status := .ok, data := s.badcnt } ∧
    exec .cntRdgood s = .next { s with status := .ok, data := s.goodcnt } ∧
    exec .fltRd s = .next { s with status := .ok, data := if s.faultFlag then 1#16 else 0#16 } ∧
    ∀ (i : Instr) (t : State), exec i s = .next t →
      (t.badcnt = s.badcnt ∨ t.badcnt = BitVec.ofNat 16 ((s.badcnt.toNat + 1) % 2 ^ s.params.cntW)) ∧
      (t.goodcnt = s.goodcnt ∨ t.goodcnt = BitVec.ofNat 16 ((s.goodcnt.toNat + 1) % 2 ^ s.params.cntW)) ∧
      (s.faultFlag = true → t.faultFlag = true)

/-! ### The whole block -/

/-- Every command, on every state and operand, answers a next state with one of the codes R221 lists for it; no reserved code
is ever produced (R220, R221). -/
def Obligations.EveryCommandAnswersAListedStatus : Prop :=
  ∀ (i : Instr) (s : State), ∃ t, exec i s = .next t ∧ t.status ∈ producedBy i ∧
    (t.status.code.toNat ≤ 0x0B ∨ t.status.code.toNat = 0x0F)

/-- No command writes a parameter or anything of the host's (R22, R23), nor the command port and the agenda, which are fields
of the model's choice (log entries 2 and 11). -/
def Obligations.CommandsLeaveHostAndParametersAlone : Prop :=
  ∀ (i : Instr) (s t : State), exec i s = .next t →
    t.params = s.params ∧ t.cmd = s.cmd ∧ t.task = s.task ∧ t.result = s.result ∧ t.clock = s.clock ∧
    t.agenda = s.agenda

/-- Who writes each register: LOCAL, SEQ, LASTSEEN, FAULT, OUTFROM and OUTTO, BADCNT, GOODCNT, CRC (the "written by" lists of
R24, R28, R29, R33 to R37; R186). -/
def Obligations.RegistersHaveOnlyTheirWriters : Prop :=
  ∀ (i : Instr) (s t : State), exec i s = .next t →
    (t.localAddr ≠ s.localAddr → ∃ a, i = .cfgSetaddr a) ∧
    (t.seq ≠ s.seq → i = .seqNext) ∧
    (t.lastseen ≠ s.lastseen → (∃ cap, i = .rxRecvrel cap) ∧ t.status = .ok) ∧
    (t.faultFlag ≠ s.faultFlag → transmits i = true ∧ t.status = .faultUnwritten ∧ t.faultFlag = true) ∧
    (t.outfrom ≠ s.outfrom ∨ t.outto ≠ s.outto →
      ((∃ cap p, i = .rxRecvfrom cap p) ∨ ∃ cap, i = .rxRecvrel cap) ∧ t.status = .ok) ∧
    (t.badcnt ≠ s.badcnt → receives i = true ∨ i = .rxAvail) ∧
    (t.goodcnt ≠ s.goodcnt → receives i = true ∧ t.status ≠ .noFrame ∧ t.status ≠ .badFcs) ∧
    (t.crc ≠ s.crc → i = .crcInit ∨ (∃ b, i = .crcUpd b) ∨ transmits i = true ∨ receives i = true)

/-- Who writes each buffer and stream: TXBUF, OUTBUF, RXBUF, RXQ, TXS (R25, R30, R32, R40, R50, R56, R57). -/
def Obligations.BuffersHaveOnlyTheirWriters : Prop :=
  ∀ (i : Instr) (s t : State), exec i s = .next t →
    (t.txbuf ≠ s.txbuf → ∃ a b, i = .txbWr a b) ∧
    (t.outbuf ≠ s.outbuf →
      ((∃ cap, i = .rxRecv cap) ∧ (t.status = .ok ∨ t.status = .badFcs)) ∨
      (((∃ cap p, i = .rxRecvfrom cap p) ∨ ∃ cap, i = .rxRecvrel cap) ∧ t.status = .ok)) ∧
    (t.rxbuf ≠ s.rxbuf ∨ t.rxq ≠ s.rxq → receives i = true ∨ i = .rxAvail) ∧
    (t.txs ≠ s.txs → transmits i = true ∨ ∃ cap, i = .rxRecvrel cap)

/-- Order on the transport: a command takes bytes from RXQ's head and appends bytes to TXS's tail, and does nothing else to
them (R56, R57, R60). -/
def Obligations.TransportOrderIsKept : Prop :=
  ∀ (i : Instr) (s t : State), exec i s = .next t →
    (∃ taken, s.rxq = taken ++ t.rxq) ∧ ∃ sent, t.txs = s.txs ++ sent

/-- The read commands change only STATUS and DATA, and they, as TXB.WR with the same operands, are idempotent (R63). -/
def Obligations.ReadCommandsAreIdempotent : Prop :=
  (∀ (i : Instr) (s : State), onlyReads i = true →
    ∃ st d, exec i s = .next { s with status := st, data := d } ∧
      exec i { s with status := st, data := d } = .next { s with status := st, data := d }) ∧
  (∀ (a b : Byte) (s t : State), exec (.txbWr a b) s = .next t → exec (.txbWr a b) t = .next t)

/-- The CRC register after a frame command: crc_over of what a transmit or an acknowledgement emitted, before the complement;
the consumed frame's residue where nothing was emitted; unchanged where the command ended before either (R134). -/
def Obligations.CrcAfterFrameCommands : Prop :=
  ∀ (i : Instr) (s t : State), exec i s = .next t →
    (transmits i = true → t.status = .ok → ∃ body, t.txs = s.txs ++ frameOf body ∧ t.crc = crcOver (frameHead body)) ∧
    (receives i = true → t.status ≠ .noFrame → t.txs = s.txs → t.crc = crcOver s.rxPull.rxbuf) ∧
    (receives i = true → t.txs ≠ s.txs → ∃ body, t.txs = s.txs ++ frameOf body ∧ t.crc = crcOver (frameHead body)) ∧
    (t.status = .noFrame ∨ t.status = .oversize ∨ t.status = .faultUnwritten ∨ t.status = .range →
      t.crc = s.crc) ∧
    ∀ (w : Word) (k : Illegal), decode w = .illegal k → ∃ u, s.execWord w = .next u ∧ u.crc = s.crc

/-! ### Reset and steps -/

/-- What reset leaves: each value R240 lists; the values of the environment and the host are the model's choice (log entries 4
and 12) and are not stated here. -/
def Obligations.ResetLeavesTheListedValues : Prop :=
  State.reset.crc = 0xFFFF#16 ∧ State.reset.rxcount = 0 ∧ State.reset.badcnt = 0#16 ∧ State.reset.goodcnt = 0#16 ∧
  (∀ i, State.reset.txBufRead i = none) ∧ State.reset.status.code = 0x00#8 ∧ State.reset.data = 0#16 ∧
  State.reset.outlen = 0 ∧ State.reset.outbuf = [] ∧ State.reset.outfrom = 0#8 ∧ State.reset.outto = 0#8 ∧
  State.reset.localAddr = 0#8 ∧ State.reset.seq = 0#7 ∧ (∀ a : Byte, State.reset.lastSeen a = 0#7) ∧
  State.reset.faultFlag = false ∧
  (∀ s : State, s.powerOn = { State.fresh s.params with
    rxq := s.rxq, txs := s.txs, cmd := s.cmd, task := s.task, result := s.result, clock := s.clock, agenda := s.agenda })

/-- The invariants of R43 hold at reset, for every legal choice of the parameters. -/
def Obligations.ResetSatisfiesTheInvariant : Prop :=
  State.reset.Inv ∧ State.reset.HostInv ∧ ∀ p : Params, p.Legal → (State.fresh p).Inv

/-- Every step keeps the invariants of R43, from every state that has them. -/
def Obligations.StepKeepsTheInvariant : Prop :=
  ∀ s t : State, s.Inv → step s = .next t → t.Inv

/-- Every step keeps the invariant of the host's procedures: at most RETRIES + 1 attempts and no poll after a broadcast (R206,
R211). -/
def Obligations.StepKeepsTheHostInvariant : Prop :=
  ∀ s t : State, s.HostInv → step s = .next t → t.HostInv

/-- No step stops: every outcome is a next state (R220, R226). -/
def Obligations.EveryStepAnswersANextState : Prop :=
  ∀ s : State, ∃ t, step s = .next t

/-- FAULT is sticky: a step clears it only where it powers the block on (R37, R223). -/
def Obligations.FaultIsSticky : Prop :=
  ∀ s t : State, step s = .next t → s.faultFlag = true →
    ¬ (s.cmd = none ∧ ∃ rest, s.agenda = .powerOn :: rest) → t.faultFlag = true

/-- With no command presented, nothing on the agenda and the host idle, the block waits (R242; the step's form is the model's
choice, log entry 3). -/
def Obligations.BlockWaitsForACommand : Prop :=
  ∀ s : State, s.cmd = none → s.agenda = [] → s.task = .idle → step s = .next s

/-- What the environment and the clock do between commands: bytes arrive at RXQ's tail, bytes are consumed from TXS's head,
the clock does not go back; nothing else changes (R22, R40, R207; the agenda is the model's choice, log entry 11). -/
def Obligations.EnvironmentMoves : Prop :=
  ∀ (s : State) (rest : List Event), s.cmd = none →
    (∀ bs, s.agenda = .arrive bs :: rest → step s = .next { s with agenda := rest, rxq := s.rxq ++ bs }) ∧
    (∀ n, s.agenda = .consume n :: rest → step s = .next { s with agenda := rest, txs := s.txs.drop n }) ∧
    (∀ ms, s.agenda = .tick ms :: rest →
      step s = .next { s with agenda := rest, clock := s.clock + ms }) ∧
    (∀ w, s.task = .idle → s.agenda = .command w :: rest → step s = .next { s with agenda := rest, cmd := some w })

/-! ### Frames between two nodes -/

/-- The base-layer round trip: what TX.SEND appends to TXS, arriving unchanged at a receiver whose buffer is empty, is received
by RX.RECV with OK, the payload in OUTBUF and GOODCNT incremented; the empty payload's frame is rejected, counted by BADCNT
and discarded (R133, with its restriction to 1 ≤ |P| by C1 of 90_conflicts.md). -/
def Obligations.BaseLayerRoundTrip : Prop :=
  (∀ (s r : State) (len cap : Byte) (p rest : List Byte), s.params.Legal → r.params = s.params →
    1 ≤ p.length → p.length ≤ s.params.maxPayload → len.toNat = p.length → s.Holds p → p.length ≤ cap.toNat →
    r.rxbuf = [] → r.rxq = [] →
    ∃ s' sent r', exec (.txSend len) s = .next s' ∧ s'.txs = s.txs ++ sent ∧
      exec (.rxRecv cap) { r with rxq := sent ++ rest } = .next r' ∧ r'.status = .ok ∧ r'.outbuf = p ∧
      r'.goodcnt = BitVec.ofNat 16 ((r.goodcnt.toNat + 1) % 2 ^ r.params.cntW) ∧ r'.rxq = rest ∧ r'.rxbuf = []) ∧
  ∀ (s r : State) (cap : Byte), r.rxbuf = [] → r.rxq = [] →
    ∃ s' sent r', exec (.txSend 0#8) s = .next s' ∧ s'.txs = s.txs ++ sent ∧
      exec (.rxRecv cap) { r with rxq := sent } = .next r' ∧ r'.status = .noFrame ∧ r'.rxq = [] ∧ r'.rxbuf = [] ∧
      r'.goodcnt = r.goodcnt ∧ r'.badcnt = BitVec.ofNat 16 ((r.badcnt.toNat + 1) % 2 ^ r.params.cntW)

/-- Addressing end to end: a frame sent to d is accepted exactly by a receiver at d, by a promiscuous one, or by everyone if d
is 255; the accepted frame reports its true source and destination, and a filtered one is not surfaced (R146). -/
def Obligations.AddressedDelivery : Prop :=
  ∀ (s r : State) (len cap d : Byte) (promisc : Bool) (p : List Byte), s.params.Legal → r.params = s.params →
    p.length ≤ s.params.maxPayloadAddr → len.toNat = p.length → s.Holds p → r.rxbuf = [] → r.rxq = [] →
    ∃ s' sent r', exec (.txSendto len d) s = .next s' ∧ s'.txs = s.txs ++ sent ∧
      exec (.rxRecvfrom cap promisc) { r with rxq := sent } = .next r' ∧
      (promisc = true ∨ d = r.localAddr ∨ d = 255#8 →
        r'.status = .ok ∧ r'.outbuf = p.take cap.toNat ∧ r'.outto = d ∧ r'.outfrom = s.localAddr) ∧
      (¬ (promisc = true ∨ d = r.localAddr ∨ d = 255#8) →
        r'.status = .filtered ∧ r'.outbuf = r.outbuf ∧ r'.outto = r.outto ∧ r'.outfrom = r.outfrom ∧
        r'.goodcnt = BitVec.ofNat 16 ((r.goodcnt.toNat + 1) % 2 ^ r.params.cntW))

/-- Reliable delivery end to end: a fresh data frame is delivered, recorded and acknowledged with one frame; the same frame
again is acknowledged again and not delivered again; and the acknowledgement, arriving at the sender, is the awaited one
(R165 to R168, R173). -/
def Obligations.ReliableDeliveryAndSuppression : Prop :=
  ∀ (s r : State) (len cap d : Byte) (q : BitVec 7) (p : List Byte), s.params.Legal → r.params = s.params →
    p.length ≤ s.params.maxPayloadRel → len.toNat = p.length → s.Holds p → r.rxbuf = [] → r.rxq = [] →
    r.localAddr = d → d ≠ 255#8 → s.rxbuf = [] → s.rxq = [] → r.lastSeen s.localAddr ≠ q →
    ∃ s' sent ack r1 r2 s'', exec (.txSendseq len d (dataFlagByte q)) s = .next s' ∧ s'.txs = s.txs ++ sent ∧
      ack.length = 6 ∧
      exec (.rxRecvrel cap) { r with rxq := sent } = .next r1 ∧ r1.status = .ok ∧ r1.outbuf = p.take cap.toNat ∧
      r1.outfrom = s.localAddr ∧ r1.lastSeen s.localAddr = q ∧ r1.txs = r.txs ++ ack ∧
      exec (.rxRecvrel cap) { r1 with rxq := sent } = .next r2 ∧ r2.status = .dup ∧ r2.outbuf = r1.outbuf ∧
      r2.lastseen = r1.lastseen ∧ r2.txs = r1.txs ++ ack ∧
      exec (.rxRecvack d (dataFlagByte q)) { s' with rxq := ack } = .next s'' ∧ s''.status = .ackMatch ∧
      s''.txs = s'.txs

/-- Resynchronisation: after an implausible first byte was pulled, a frame that arrives later is received as usual (R131). -/
def Obligations.ResynchronisationDoesNotStall : Prop :=
  ∀ (s : State) (v cap : Byte) (q p : List Byte), s.params.Legal → s.rxbuf = [] → s.rxq = v :: q →
    ¬ (4 ≤ v.toNat ∧ v.toNat ≤ s.params.maxFrameLen) → 1 ≤ p.length → p.length ≤ s.params.maxPayload →
    ∃ t u, exec .rxAvail s = .next t ∧ t.data = 0#16 ∧ t.rxq = [] ∧ t.badcnt = BitVec.ofNat 16 ((s.badcnt.toNat + 1) % 2 ^ s.params.cntW) ∧
      exec (.rxRecv cap) { t with rxq := t.rxq ++ frameOf p } = .next u ∧ u.status = .ok ∧
      u.outbuf = p.take cap.toNat

/-- The lossless loopback: after node k's step every other node has exactly the bytes of k's TXS more in its RXQ and nothing
else changed, and k's TXS is drained (R42, R231; the net of states is the model's choice, log entry 20). -/
def Obligations.LoopbackDeliversToEveryOtherNode : Prop :=
  ∀ (k : Nat) (nodes : List State) (n n' : State), nodes[k]? = some n → step n = .next n' →
    (linkStep k nodes)[k]? = some { n' with txs := [] } ∧ (linkStep k nodes).length = nodes.length ∧
    ∀ j m, j ≠ k → nodes[j]? = some m → (linkStep k nodes)[j]? = some { m with rxq := m.rxq ++ n'.txs }

/-! ### Pseudo-instructions and host procedures (30_encoding.md R83, 46_host.md) -/

/-- TXB.LOAD loads its bytes and leaves the other cells alone; CRC.OVER leaves crc_over of its bytes in CRC (R83). -/
def Obligations.PseudoInstructionEffects : Prop :=
  (∀ (s : State) (p : List Byte), s.params.Legal → p.length ≤ s.params.maxPayload →
    ∃ t, execAll (Pseudo.expand (.txbLoad p)) s = .next t ∧ t.Holds p ∧ t.txs = s.txs ∧ t.crc = s.crc ∧
      ∀ i, p.length ≤ i → t.txBufRead i = s.txBufRead i) ∧
  (∀ (s : State) (p : List Byte), ∃ t, execAll (Pseudo.expand (.crcOver p)) s = .next t ∧ t.crc = crcOver p ∧
    t.txbuf = s.txbuf ∧ t.txs = s.txs)

/-- host_send on a payload that fits: the procedure loads it, transmits one frame of it, and returns SUCCESS, in 2|P| + 3 steps
of the node (R201; the steps are the model's turns, log entry 13). -/
def Obligations.HostSendTransmitsItsPayload : Prop :=
  ∀ (s : State) (p : List Byte), s.params.Legal → p.length ≤ s.params.maxPayload → s.cmd = none → s.task = .idle →
    s.agenda = [.call (.send p)] →
    ∃ t, Sys2Proof.core.run (2 * p.length + 3) s = .next t ∧ t.result = some .success ∧ t.task = .idle ∧
      t.txs = s.txs ++ frameOf p ∧ t.faultFlag = s.faultFlag

/-- A send whose payload exceeds its layer's limit fails at once: no command is issued, nothing is transmitted, SEQ stays (R201,
R202, R206). That the call fails in the one step that takes it from the agenda is the model's form (log entries 11 and 13), and
so is the name failWait of host_sendToWait's FAIL (log entry 26). -/
def Obligations.OversizeSendsFailAtOnce : Prop :=
  ∀ (s : State) (p : List Byte) (rest : List Event) (c : HostCall), s.cmd = none → s.task = .idle →
    s.agenda = .call c :: rest →
    ((c = .send p ∧ s.params.maxPayload < p.length) ∨ (∃ d, c = .sendTo d p ∧ s.params.maxPayloadAddr < p.length) →
      step s = .next { s with agenda := rest, result := some .fail }) ∧
    ((∃ d t r, c = .sendToWait d p t r ∧ s.params.maxPayloadRel < p.length) →
      step s = .next { s with agenda := rest, result := some .failWait })

/-- The turns of host_sendToWait. The call issues SEQ.NEXT; its DATA becomes the sequence number of every attempt; TXB.LOAD
writes the payload's bytes in order; attempts 0 to RETRIES each send the same payload length, destination and sequence number
and read t0; a broadcast is acknowledged after its one transmission with no poll; a poll is issued while
now() − t0 < TIMEOUT_MS; ACKMATCH ends with ACKNOWLEDGED, an elapsed window with the next attempt, and exhausted retries with
FAIL (R206). Sending is followed by AwaitingAck, or by Acknowledged for a broadcast; AwaitingAck by Acknowledged, Retrying or
Exhausted; Retrying by Sending (R209). The division into turns and the phases that R209 leaves open are the model's choices (log
entries 13 and 26). -/
def Obligations.SendToWaitTurns : Prop :=
  (∀ (s : State) (d : Byte) (p : List Byte) (timeoutMs retries : Nat) (rest : List Event), s.cmd = none → s.task = .idle →
    s.agenda = .call (.sendToWait d p timeoutMs retries) :: rest → p.length ≤ s.params.maxPayloadRel →
    ∃ job : WaitJob, job.dest = d ∧ job.payload = p ∧ job.timeoutMs = timeoutMs ∧ job.retries = retries ∧
      step s = .next { s with agenda := rest, result := none, cmd := some (encode .seqNext), task := .seqNext job }) ∧
  (∀ (s : State) (job : WaitJob), s.cmd = none → s.agenda = [] → s.task = .seqNext job →
    ∀ job' : WaitJob, job' = { job with seq := s.data.extractLsb' 0 7 } →
    (∀ b bs, job.payload = b :: bs → step s = .next { s with
      cmd := some (encode (.txbWr 0#8 b)), task := .load (.reliable job') job.payload 1 }) ∧
    (job.payload = [] → step s = .next { s with task := .attempt job' 0 })) ∧
  (∀ (s : State) (job : WaitJob) (p : List Byte) (i : Nat), s.cmd = none → s.agenda = [] →
    s.task = .load (.reliable job) p i →
    (∀ h : i < p.length, step s = .next { s with
      cmd := some (encode (.txbWr (BitVec.ofNat 8 i) p[i])), task := .load (.reliable job) p (i + 1) }) ∧
    (p.length ≤ i → step s = .next { s with task := .attempt job 0 })) ∧
  (∀ (s : State) (job : WaitJob) (k t0 : Nat), s.cmd = none → s.agenda = [] →
    (s.task = .attempt job k → k ≤ job.retries → step s = .next { s with
      cmd := some (encode (.txSendseq (BitVec.ofNat 8 job.payload.length) job.dest (BitVec.ofNat 8 job.seq.toNat)))
      task := .transmitted job k s.clock }) ∧
    (s.task = .attempt job k → job.retries < k → step s = .next { s with task := .idle, result := some .failWait }) ∧
    (s.task = .transmitted job k t0 → job.dest = 255#8 →
      step s = .next { s with task := .idle, result := some .acknowledged }) ∧
    (s.task = .polled job k t0 → s.status = .ackMatch →
      step s = .next { s with task := .idle, result := some .acknowledged }) ∧
    ((s.task = .transmitted job k t0 ∧ job.dest ≠ 255#8) ∨ (s.task = .polled job k t0 ∧ s.status ≠ .ackMatch) →
      (s.clock - t0 < job.timeoutMs → step s = .next { s with
        cmd := some (encode (.rxRecvack job.dest (BitVec.ofNat 8 job.seq.toNat))), task := .polled job k t0 }) ∧
      (job.timeoutMs ≤ s.clock - t0 → step s = .next { s with task := .attempt job (k + 1) }))) ∧
  ∀ s t : State, step s = .next t →
    (s.sendPhase = some .sending → t.sendPhase = some .sending ∨ t.sendPhase = some .awaitingAck ∨
      t.sendPhase = some .acknowledged) ∧
    (s.sendPhase = some .awaitingAck → t.sendPhase = some .awaitingAck ∨ t.sendPhase = some .acknowledged ∨
      t.sendPhase = some .retrying ∨ t.sendPhase = some .exhausted) ∧
    (s.sendPhase = some .retrying → t.sendPhase = some .retrying ∨ t.sendPhase = some .sending)

/-- The receive procedures' turns. A call issues its receive command (R203, R204, R205, R208). On the response, host_recv returns
on every status and never repeats its command; the others return at NOFRAME, go on to read the message on OK, and on every other
status issue the same command again (R203, R204, R208). Reading takes OUT.RD's bytes in order, then OUT.HDR's addresses where
they are reported: from is DATA[7:0] and to is DATA[15:8] (R204). The division into turns is the model's choice (log entry 13),
and so is the empty list beside false at NOFRAME where R204 and R208 leave it open (log entry 27). -/
def Obligations.ReceiveLoopTurns : Prop :=
  (∀ (s : State) (c : HostCall) (what : HostReceive) (rest : List Event), s.cmd = none → s.task = .idle →
    s.agenda = .call c :: rest →
    (∃ cap, c = .recv cap ∧ what = .base cap) ∨ (∃ cap p, c = .recvFrom cap p ∧ what = .addressed cap p true) ∨
      (∃ cap, c = .recvAddressed cap ∧ what = .addressed cap false false) ∨
      (∃ cap, c = .recvFromAck cap ∧ what = .reliable cap) →
    step s = .next { s with
      agenda := rest, result := none, cmd := some (encode what.command), task := .receiving what }) ∧
  (∀ (s : State) (what : HostReceive), s.cmd = none → s.agenda = [] → s.task = .receiving what →
    (s.status = .noFrame → step s = .next { s with task := .idle, result := some (.received false [] none) }) ∧
    (s.status = .ok → 0 < s.data.toNat → step s = .next { s with
      cmd := some (encode (.outRd 0#8)), task := .reading true what.reports s.data.toNat [] }) ∧
    (s.status = .ok → s.data = 0#16 → what.reports = true → step s = .next { s with
      cmd := some (encode .outHdr), task := .header true [] }) ∧
    (s.status = .ok → s.data = 0#16 → what.reports = false → step s = .next { s with
      task := .idle, result := some (.received true [] none) }) ∧
    (s.status ≠ .noFrame → s.status ≠ .ok → (∀ cap, what ≠ .base cap) → step s = .next { s with
      cmd := some (encode what.command) }) ∧
    (∀ cap, what = .base cap → s.status ≠ .noFrame → s.status ≠ .ok →
      (0 < s.data.toNat → step s = .next { s with
        cmd := some (encode (.outRd 0#8)), task := .reading false false s.data.toNat [] }) ∧
      (s.data = 0#16 → step s = .next { s with task := .idle, result := some (.received false [] none) }))) ∧
  (∀ (s : State) (good report : Bool) (total : Nat) (bytes : List Byte), s.cmd = none → s.agenda = [] →
    s.task = .reading good report total bytes →
    ∀ bytes' : List Byte, bytes' = bytes ++ [s.data.extractLsb' 0 8] →
    (bytes'.length < total → step s = .next { s with
      cmd := some (encode (.outRd (BitVec.ofNat 8 bytes'.length))), task := .reading good report total bytes' }) ∧
    (total ≤ bytes'.length → report = true → step s = .next { s with
      cmd := some (encode .outHdr), task := .header good bytes' }) ∧
    (total ≤ bytes'.length → report = false → step s = .next { s with
      task := .idle, result := some (.received good bytes' none) })) ∧
  ∀ (s : State) (good : Bool) (bytes : List Byte), s.cmd = none → s.agenda = [] → s.task = .header good bytes →
    step s = .next { s with
      task := .idle
      result := some (.received good bytes (some (s.data.extractLsb' 0 8, s.data.extractLsb' 8 8))) }

/-- host_waitAvailable holds while RXQ is empty and returns once it is not; bytes that the environment appends lift the hold
(R210). That a hold is a step which answers the same state is the model's reading (log entry 15). -/
def Obligations.WaitAvailableHolds : Prop :=
  ∀ s : State, s.cmd = none → s.agenda = [] → s.task = .waiting →
    (s.rxq = [] → step s = .next s) ∧
    (s.rxq ≠ [] → step s = .next { s with task := .idle, result := some .available }) ∧
    ∀ bytes, bytes ≠ [] → step (s.arrive bytes) = .next { s with
      rxq := s.rxq ++ bytes, task := .idle, result := some .available }
end

