-- ==== Sys2Proof/Laws/Crc.lean ====
section
/-! SUPPORT. The CRC update as a linear map: what a byte does to the low half of the register and to the high half. -/

namespace Sys2Proof.Machine

/-- One round of the update with no data bit. -/
def crcShift (x : Half) : Half := if x.getLsbD 0 then (x >>> 1) ^^^ crcPolyReflected else x >>> 1

/-- `n` rounds with no data bit. -/
def crcShifts : Nat → Half → Half
  | 0, x => x
  | n + 1, x => crcShifts n (crcShift x)

theorem and_one_eq_one_iff (x : Half) : x &&& 1#16 = 1#16 ↔ x.getLsbD 0 = true := by
  constructor
  · intro h
    simpa using congrArg (·.getLsbD 0) h
  · intro h
    ext i hi
    by_cases h0 : i = 0
    · subst h0; simpa [BitVec.getLsbD_eq_getElem] using h
    · simp [h0, BitVec.getElem_one]

theorem crcShift_xor (x y : Half) : crcShift (x ^^^ y) = crcShift x ^^^ crcShift y := by
  unfold crcShift
  simp only [BitVec.getLsbD_xor, BitVec.ushiftRight_xor_distrib]
  cases x.getLsbD 0 <;> cases y.getLsbD 0 <;> simp
  · rw [BitVec.xor_assoc]
  · rw [BitVec.xor_assoc, BitVec.xor_assoc, BitVec.xor_comm (y >>> 1)]
  · rw [BitVec.xor_assoc, ← BitVec.xor_assoc crcPolyReflected, BitVec.xor_comm crcPolyReflected, BitVec.xor_assoc]
    simp

theorem crcShifts_xor (n : Nat) : ∀ x y, crcShifts n (x ^^^ y) = crcShifts n x ^^^ crcShifts n y := by
  induction n with
  | zero => intros; rfl
  | succ n ih => intro x y; simp only [crcShifts, crcShift_xor, ih]

/-- One round with a data bit is one round of the sum, with the rest of the byte still to come (R101). -/
theorem crcBit_eq (c : Half) (b : Byte) :
    crcBit c b ^^^ (b >>> 1).zeroExtend 16 = crcShift (c ^^^ b.zeroExtend 16) := by
  have hb : (b >>> 1).zeroExtend 16 = (b.zeroExtend 16) >>> 1 := by
    ext i hi; simp
  unfold crcBit crcShift
  simp only [and_one_eq_one_iff, BitVec.ushiftRight_xor_distrib, hb]
  split
  · rw [BitVec.xor_assoc, BitVec.xor_comm crcPolyReflected, BitVec.xor_assoc]
  · rfl

theorem crcRounds_eq (n : Nat) : ∀ (c : Half) (b : Byte),
    crcRounds n c b ^^^ (b >>> n).zeroExtend 16 = crcShifts n (c ^^^ b.zeroExtend 16) := by
  induction n with
  | zero => intro c b; simp [crcRounds, crcShifts]
  | succ n ih =>
    intro c b
    simp only [crcRounds, crcShifts]
    rw [← crcBit_eq, ← ih, ← BitVec.shiftRight_add, Nat.add_comm n 1]

theorem crcUpdate_eq_shifts (c : Half) (b : Byte) : crcUpdate c b = crcShifts 8 (c ^^^ b.zeroExtend 16) := by
  have : b >>> 8 = 0#8 := by
    apply BitVec.eq_of_toNat_eq
    simp [Nat.shiftRight_eq_div_pow]
    omega
  rw [← crcRounds_eq, crcUpdate, this]
  simp

theorem crcShifts_high (h : Byte) : crcShifts 8 (h.zeroExtend 16 <<< 8) = h.zeroExtend 16 := by
  revert h; decide +kernel

theorem half_split (c : Half) :
    c = (c.extractLsb' 8 8).zeroExtend 16 <<< 8 ^^^ (c.extractLsb' 0 8).zeroExtend 16 := by
  ext i hi
  simp [BitVec.getElem_setWidth]
  by_cases h : i < 8 <;> simp [h]
  · simp [BitVec.getLsbD_eq_getElem hi]
  · rw [show 8 + (i - 8) = i by omega]; simp [BitVec.getLsbD_eq_getElem hi]; intro; omega

/-- The update moves the high half down and adds what the low half and the byte together make (R101). -/
theorem crcUpdate_split (c : Half) (b : Byte) : crcUpdate c b =
    (c.extractLsb' 8 8).zeroExtend 16 ^^^ crcShifts 8 ((b ^^^ c.extractLsb' 0 8).zeroExtend 16) := by
  have hz : (b ^^^ c.extractLsb' 0 8).zeroExtend 16 = b.zeroExtend 16 ^^^ (c.extractLsb' 0 8).zeroExtend 16 := by
    ext i hi; simp [BitVec.getElem_setWidth]
  rw [crcUpdate_eq_shifts]
  conv_lhs => rw [half_split c]
  rw [BitVec.xor_assoc, crcShifts_xor, crcShifts_high, hz, BitVec.xor_comm (BitVec.zeroExtend 16 b)]

/-- crc_over of a sequence and then more (R102). -/
theorem crcOver_append (s t : List Byte) : crcOver (s ++ t) = crcOverFrom (crcOver s) t := by
  simp [crcOver, crcOverFrom]

end Sys2Proof.Machine
end

