-- ==== Sys2Proof/Laws/Encoding.lean ====
section
/-! SUPPORT. How packing a command word and extracting its fields relate, and when a row of the opcode map matches. -/

namespace Sys2Proof

theorem pack_getLsbD (op fn : BitVec 4) (a b c : Byte) (i : Nat) : (pack op fn a b c).getLsbD i =
    if i < 8 then c.getLsbD i else if i < 16 then b.getLsbD (i - 8) else if i < 24 then a.getLsbD (i - 16)
    else if i < 28 then fn.getLsbD (i - 24) else op.getLsbD (i - 28) := by
  have h1 := BitVec.getLsbD_append (x := op ++ fn ++ a ++ b) (y := c) (i := i)
  have h2 := BitVec.getLsbD_append (x := op ++ fn ++ a) (y := b) (i := i - 8)
  have h3 := BitVec.getLsbD_append (x := op ++ fn) (y := a) (i := i - 8 - 8)
  have h4 := BitVec.getLsbD_append (x := op) (y := fn) (i := i - 8 - 8 - 8)
  refine h1.trans ?_
  rw [h2, h3, h4]
  split_ifs <;> first | rfl | omega

/-- Extracting the fields of a packed word gives the fields (R70, R71). -/
@[simp] theorem fields_pack (op fn : BitVec 4) (a b c : Byte) :
    fields (pack op fn a b c) = { op := op, fn := fn, a := a, b := b, c := c } := by
  simp only [fields, Fields.mk.injEq]
  refine ⟨?_, ?_, ?_, ?_, ?_⟩ <;>
  · ext i hi
    simp only [BitVec.getElem_extractLsb', pack_getLsbD]
    split_ifs <;> first | omega | simp [BitVec.getLsbD_eq_getElem, hi]

/-- Packing the fields of a word gives the word: no bit is lost (R70, R71). -/
theorem pack_fields (w : Word) : pack (fields w).op (fields w).fn (fields w).a (fields w).b (fields w).c = w := by
  apply BitVec.eq_of_getLsbD_eq
  intro i hi
  simp only [pack_getLsbD, fields, BitVec.getLsbD_extractLsb']
  split_ifs
  · rw [show 0 + i = i by omega]; simp; omega
  · rw [show 8 + (i - 8) = i by omega]; simp; omega
  · rw [show 16 + (i - 16) = i by omega]; simp; omega
  · rw [show 24 + (i - 24) = i by omega]; simp; omega
  · rw [show 28 + (i - 28) = i by omega]; simp; omega

theorem fields_injective {w v : Word} (h : fields w = fields v) : w = v := by
  rw [← pack_fields w, ← pack_fields v, h]

/-- The fields of a bitwise and. -/
theorem fields_and (w v : Word) : fields (w &&& v) =
    { op := (fields w).op &&& (fields v).op, fn := (fields w).fn &&& (fields v).fn, a := (fields w).a &&& (fields v).a,
      b := (fields w).b &&& (fields v).b, c := (fields w).c &&& (fields v).c } := by
  simp [fields, BitVec.extractLsb'_and]

/-- A row matches when every field, under the mask's field, is the pattern's field (R75). -/
theorem rowMatches_iff (w : Word) (r : OpRow) : rowMatches w r = true ↔
    (fields w).op &&& (fields r.mask).op = (fields r.pattern).op ∧
    (fields w).fn &&& (fields r.mask).fn = (fields r.pattern).fn ∧
    (fields w).a &&& (fields r.mask).a = (fields r.pattern).a ∧
    (fields w).b &&& (fields r.mask).b = (fields r.pattern).b ∧
    (fields w).c &&& (fields r.mask).c = (fields r.pattern).c := by
  simp only [rowMatches, beq_iff_eq]
  constructor
  · intro h
    rw [← h, fields_and]
    exact ⟨rfl, rfl, rfl, rfl, rfl⟩
  · rintro ⟨h1, h2, h3, h4, h5⟩
    apply fields_injective
    rw [fields_and, h1, h2, h3, h4, h5]

end Sys2Proof
end

