-- ==== Sys2Proof/Laws/Memory.lean ====
section
/-! SUPPORT. The laws of TXBUF's list: read after write, and the canonical form. -/

namespace Sys2Proof.Machine

/-- A read of the cell written gives the byte written. -/
@[simp] theorem Memory.read_write_same (m : Memory) (i : Nat) (v : Byte) : (m.write i v).read i = some v := by
  induction m with
  | nil => simp [Memory.write, Memory.read]
  | cons c m ih =>
    obtain ⟨a, b⟩ := c
    simp only [Memory.write]
    split_ifs with h1 h2
    · simp [Memory.read]
    · simp [Memory.read]
    · simp [Memory.read, Ne.symm h2, ih]

/-- A write leaves every other cell alone. -/
theorem Memory.read_write_other (m : Memory) {i j : Nat} (v : Byte) (h : j ≠ i) :
    (m.write i v).read j = m.read j := by
  induction m with
  | nil => simp [Memory.write, Memory.read, h.symm]
  | cons c m ih =>
    obtain ⟨a, b⟩ := c
    simp only [Memory.write]
    split_ifs with h1 h2
    · simp [Memory.read, h.symm]
    · subst h2; simp [Memory.read, h.symm]
    · simp only [Memory.read, ih]

/-- The cells a write lists are the old ones and the one written. -/
theorem Memory.mem_write {m : Memory} {i : Nat} {v : Byte} {c : Host.Cell} (h : c ∈ m.write i v) :
    c = (i, v) ∨ c ∈ m := by
  induction m with
  | nil => simpa [Memory.write] using h
  | cons d m ih =>
    obtain ⟨a, b⟩ := d
    simp only [Memory.write] at h
    split_ifs at h with h1 h2
    · simpa using h
    · rcases List.mem_cons.1 h with h | h
      · exact .inl h
      · exact .inr (List.mem_cons_of_mem _ h)
    · rcases List.mem_cons.1 h with h | h
      · exact .inr (h ▸ List.mem_cons_self)
      · exact (ih h).imp id (List.mem_cons_of_mem _)

/-- A write keeps the canonical form. -/
theorem Memory.wf_write {m : Memory} (h : m.wf) (i : Nat) (v : Byte) : (m.write i v).wf := by
  induction m with
  | nil => simp [Memory.write, Memory.wf]
  | cons c m ih =>
    obtain ⟨a, b⟩ := c
    obtain ⟨ha, hm⟩ := List.pairwise_cons.1 h
    simp only [Memory.write]
    split_ifs with h1 h2
    · refine List.pairwise_cons.2 ⟨fun x hx => ?_, h⟩
      rcases List.mem_cons.1 hx with rfl | hx
      · exact h1
      · exact lt_trans h1 (ha x hx)
    · subst h2; exact List.pairwise_cons.2 ⟨ha, hm⟩
    · refine List.pairwise_cons.2 ⟨fun x hx => ?_, ih hm⟩
      rcases Memory.mem_write hx with rfl | hx
      · show a < i; omega
      · exact ha x hx

/-- A range is read exactly when every cell of it is written, and then it holds those bytes. -/
theorem Memory.readRange_eq_some_iff (m : Memory) (n : Nat) : ∀ (i : Nat) (bs : List Byte),
    m.readRange i n = some bs ↔ bs.length = n ∧ ∀ k, k < n → m.read (i + k) = bs[k]? := by
  induction n with
  | zero =>
    intro i bs
    cases bs <;> simp [Memory.readRange]
  | succ n ih =>
    intro i bs
    simp only [Memory.readRange]
    constructor
    · intro h
      split at h
      · rename_i b cs hb hcs
        obtain rfl := Option.some.inj h
        obtain ⟨hl, hk⟩ := (ih (i + 1) cs).1 hcs
        refine ⟨by simp [hl], fun k hk' => ?_⟩
        cases k with
        | zero => simpa using hb
        | succ k => simpa [Nat.add_assoc, Nat.add_comm 1 k] using hk k (by omega)
      · cases h
    · rintro ⟨hl, hk⟩
      cases bs with
      | nil => simp at hl
      | cons b cs =>
        have hb : m.read i = some b := by simpa using hk 0 (by omega)
        have hcs : m.readRange (i + 1) n = some cs := (ih (i + 1) cs).2
          ⟨by simpa using hl, fun k hk' => by
            have := hk (k + 1) (by omega)
            simpa [Nat.add_assoc, Nat.add_comm 1 k] using this⟩
        simp [hb, hcs]

/-- A range is not read exactly when some cell of it is unwritten. -/
theorem Memory.readRange_eq_none_iff (m : Memory) (n : Nat) : ∀ i : Nat,
    m.readRange i n = none ↔ ∃ k, k < n ∧ m.read (i + k) = none := by
  induction n with
  | zero => intro i; simp [Memory.readRange]
  | succ n ih =>
    intro i
    simp only [Memory.readRange]
    constructor
    · intro h
      split at h
      · cases h
      · rename_i hne
        cases hb : m.read i with
        | none => exact ⟨0, by omega, by simpa using hb⟩
        | some b =>
          cases hr : m.readRange (i + 1) n with
          | none =>
            obtain ⟨k, hk, hn⟩ := (ih (i + 1)).1 hr
            exact ⟨k + 1, by omega, by simpa [Nat.add_assoc, Nat.add_comm 1 k] using hn⟩
          | some bs => exact absurd hr (hne b bs hb)
    · rintro ⟨k, hk, hn⟩
      cases k with
      | zero => simp at hn; simp [hn]
      | succ k =>
        have : m.readRange (i + 1) n = none := (ih (i + 1)).2 ⟨k, by omega, by
          simpa [Nat.add_assoc, Nat.add_comm 1 k] using hn⟩
        simp [this]

end Sys2Proof.Machine
end

