-- ==== Sys2Proof/Laws/State.lean ====
section
/-! SUPPORT. One lemma per field per named update of the state, each true by definition, so that no later proof unfolds a
record update. -/

namespace Sys2Proof.Machine

variable (s : State)

/-! ### respond -/

@[simp] theorem State.respond_params (st : Status) (d : Half) : (s.respond st d).params = s.params := rfl
@[simp] theorem State.respond_crc (st : Status) (d : Half) : (s.respond st d).crc = s.crc := rfl
@[simp] theorem State.respond_rxbuf (st : Status) (d : Half) : (s.respond st d).rxbuf = s.rxbuf := rfl
@[simp] theorem State.respond_badcnt (st : Status) (d : Half) : (s.respond st d).badcnt = s.badcnt := rfl
@[simp] theorem State.respond_goodcnt (st : Status) (d : Half) : (s.respond st d).goodcnt = s.goodcnt := rfl
@[simp] theorem State.respond_txbuf (st : Status) (d : Half) : (s.respond st d).txbuf = s.txbuf := rfl
@[simp] theorem State.respond_status (st : Status) (d : Half) : (s.respond st d).status = st := rfl
@[simp] theorem State.respond_data (st : Status) (d : Half) : (s.respond st d).data = d := rfl
@[simp] theorem State.respond_outbuf (st : Status) (d : Half) : (s.respond st d).outbuf = s.outbuf := rfl
@[simp] theorem State.respond_outfrom (st : Status) (d : Half) : (s.respond st d).outfrom = s.outfrom := rfl
@[simp] theorem State.respond_outto (st : Status) (d : Half) : (s.respond st d).outto = s.outto := rfl
@[simp] theorem State.respond_localAddr (st : Status) (d : Half) : (s.respond st d).localAddr = s.localAddr := rfl
@[simp] theorem State.respond_seq (st : Status) (d : Half) : (s.respond st d).seq = s.seq := rfl
@[simp] theorem State.respond_lastseen (st : Status) (d : Half) : (s.respond st d).lastseen = s.lastseen := rfl
@[simp] theorem State.respond_faultFlag (st : Status) (d : Half) : (s.respond st d).faultFlag = s.faultFlag := rfl
@[simp] theorem State.respond_rxq (st : Status) (d : Half) : (s.respond st d).rxq = s.rxq := rfl
@[simp] theorem State.respond_txs (st : Status) (d : Half) : (s.respond st d).txs = s.txs := rfl
@[simp] theorem State.respond_cmd (st : Status) (d : Half) : (s.respond st d).cmd = s.cmd := rfl
@[simp] theorem State.respond_task (st : Status) (d : Half) : (s.respond st d).task = s.task := rfl
@[simp] theorem State.respond_result (st : Status) (d : Half) : (s.respond st d).result = s.result := rfl
@[simp] theorem State.respond_clock (st : Status) (d : Half) : (s.respond st d).clock = s.clock := rfl
@[simp] theorem State.respond_agenda (st : Status) (d : Half) : (s.respond st d).agenda = s.agenda := rfl

/-! ### raiseFault -/

@[simp] theorem State.raiseFault_params (k : FaultKind) : (s.raiseFault k).params = s.params := by cases k; rfl
@[simp] theorem State.raiseFault_crc (k : FaultKind) : (s.raiseFault k).crc = s.crc := by cases k; rfl
@[simp] theorem State.raiseFault_rxbuf (k : FaultKind) : (s.raiseFault k).rxbuf = s.rxbuf := by cases k; rfl
@[simp] theorem State.raiseFault_badcnt (k : FaultKind) : (s.raiseFault k).badcnt = s.badcnt := by cases k; rfl
@[simp] theorem State.raiseFault_goodcnt (k : FaultKind) : (s.raiseFault k).goodcnt = s.goodcnt := by cases k; rfl
@[simp] theorem State.raiseFault_txbuf (k : FaultKind) : (s.raiseFault k).txbuf = s.txbuf := by cases k; rfl
@[simp] theorem State.raiseFault_status (k : FaultKind) : (s.raiseFault k).status = s.status := by cases k; rfl
@[simp] theorem State.raiseFault_data (k : FaultKind) : (s.raiseFault k).data = s.data := by cases k; rfl
@[simp] theorem State.raiseFault_outbuf (k : FaultKind) : (s.raiseFault k).outbuf = s.outbuf := by cases k; rfl
@[simp] theorem State.raiseFault_outfrom (k : FaultKind) : (s.raiseFault k).outfrom = s.outfrom := by cases k; rfl
@[simp] theorem State.raiseFault_outto (k : FaultKind) : (s.raiseFault k).outto = s.outto := by cases k; rfl
@[simp] theorem State.raiseFault_localAddr (k : FaultKind) : (s.raiseFault k).localAddr = s.localAddr := by cases k; rfl
@[simp] theorem State.raiseFault_seq (k : FaultKind) : (s.raiseFault k).seq = s.seq := by cases k; rfl
@[simp] theorem State.raiseFault_lastseen (k : FaultKind) : (s.raiseFault k).lastseen = s.lastseen := by cases k; rfl
@[simp] theorem State.raiseFault_faultFlag (k : FaultKind) : (s.raiseFault k).faultFlag = true := by cases k; rfl
@[simp] theorem State.raiseFault_rxq (k : FaultKind) : (s.raiseFault k).rxq = s.rxq := by cases k; rfl
@[simp] theorem State.raiseFault_txs (k : FaultKind) : (s.raiseFault k).txs = s.txs := by cases k; rfl
@[simp] theorem State.raiseFault_cmd (k : FaultKind) : (s.raiseFault k).cmd = s.cmd := by cases k; rfl
@[simp] theorem State.raiseFault_task (k : FaultKind) : (s.raiseFault k).task = s.task := by cases k; rfl
@[simp] theorem State.raiseFault_result (k : FaultKind) : (s.raiseFault k).result = s.result := by cases k; rfl
@[simp] theorem State.raiseFault_clock (k : FaultKind) : (s.raiseFault k).clock = s.clock := by cases k; rfl
@[simp] theorem State.raiseFault_agenda (k : FaultKind) : (s.raiseFault k).agenda = s.agenda := by cases k; rfl

/-! ### txBufWrite -/

@[simp] theorem State.txBufWrite_params (i : Nat) (v : Byte) : (s.txBufWrite i v).params = s.params := rfl
@[simp] theorem State.txBufWrite_crc (i : Nat) (v : Byte) : (s.txBufWrite i v).crc = s.crc := rfl
@[simp] theorem State.txBufWrite_rxbuf (i : Nat) (v : Byte) : (s.txBufWrite i v).rxbuf = s.rxbuf := rfl
@[simp] theorem State.txBufWrite_badcnt (i : Nat) (v : Byte) : (s.txBufWrite i v).badcnt = s.badcnt := rfl
@[simp] theorem State.txBufWrite_goodcnt (i : Nat) (v : Byte) : (s.txBufWrite i v).goodcnt = s.goodcnt := rfl
@[simp] theorem State.txBufWrite_txbuf (i : Nat) (v : Byte) : (s.txBufWrite i v).txbuf = s.txbuf.write i v := rfl
@[simp] theorem State.txBufWrite_status (i : Nat) (v : Byte) : (s.txBufWrite i v).status = s.status := rfl
@[simp] theorem State.txBufWrite_data (i : Nat) (v : Byte) : (s.txBufWrite i v).data = s.data := rfl
@[simp] theorem State.txBufWrite_outbuf (i : Nat) (v : Byte) : (s.txBufWrite i v).outbuf = s.outbuf := rfl
@[simp] theorem State.txBufWrite_outfrom (i : Nat) (v : Byte) : (s.txBufWrite i v).outfrom = s.outfrom := rfl
@[simp] theorem State.txBufWrite_outto (i : Nat) (v : Byte) : (s.txBufWrite i v).outto = s.outto := rfl
@[simp] theorem State.txBufWrite_localAddr (i : Nat) (v : Byte) : (s.txBufWrite i v).localAddr = s.localAddr := rfl
@[simp] theorem State.txBufWrite_seq (i : Nat) (v : Byte) : (s.txBufWrite i v).seq = s.seq := rfl
@[simp] theorem State.txBufWrite_lastseen (i : Nat) (v : Byte) : (s.txBufWrite i v).lastseen = s.lastseen := rfl
@[simp] theorem State.txBufWrite_faultFlag (i : Nat) (v : Byte) : (s.txBufWrite i v).faultFlag = s.faultFlag := rfl
@[simp] theorem State.txBufWrite_rxq (i : Nat) (v : Byte) : (s.txBufWrite i v).rxq = s.rxq := rfl
@[simp] theorem State.txBufWrite_txs (i : Nat) (v : Byte) : (s.txBufWrite i v).txs = s.txs := rfl
@[simp] theorem State.txBufWrite_cmd (i : Nat) (v : Byte) : (s.txBufWrite i v).cmd = s.cmd := rfl
@[simp] theorem State.txBufWrite_task (i : Nat) (v : Byte) : (s.txBufWrite i v).task = s.task := rfl
@[simp] theorem State.txBufWrite_result (i : Nat) (v : Byte) : (s.txBufWrite i v).result = s.result := rfl
@[simp] theorem State.txBufWrite_clock (i : Nat) (v : Byte) : (s.txBufWrite i v).clock = s.clock := rfl
@[simp] theorem State.txBufWrite_agenda (i : Nat) (v : Byte) : (s.txBufWrite i v).agenda = s.agenda := rfl

/-! ### setLastSeen -/

@[simp] theorem State.setLastSeen_params (a : Byte) (q : BitVec 7) : (s.setLastSeen a q).params = s.params := rfl
@[simp] theorem State.setLastSeen_crc (a : Byte) (q : BitVec 7) : (s.setLastSeen a q).crc = s.crc := rfl
@[simp] theorem State.setLastSeen_rxbuf (a : Byte) (q : BitVec 7) : (s.setLastSeen a q).rxbuf = s.rxbuf := rfl
@[simp] theorem State.setLastSeen_badcnt (a : Byte) (q : BitVec 7) : (s.setLastSeen a q).badcnt = s.badcnt := rfl
@[simp] theorem State.setLastSeen_goodcnt (a : Byte) (q : BitVec 7) : (s.setLastSeen a q).goodcnt = s.goodcnt := rfl
@[simp] theorem State.setLastSeen_txbuf (a : Byte) (q : BitVec 7) : (s.setLastSeen a q).txbuf = s.txbuf := rfl
@[simp] theorem State.setLastSeen_status (a : Byte) (q : BitVec 7) : (s.setLastSeen a q).status = s.status := rfl
@[simp] theorem State.setLastSeen_data (a : Byte) (q : BitVec 7) : (s.setLastSeen a q).data = s.data := rfl
@[simp] theorem State.setLastSeen_outbuf (a : Byte) (q : BitVec 7) : (s.setLastSeen a q).outbuf = s.outbuf := rfl
@[simp] theorem State.setLastSeen_outfrom (a : Byte) (q : BitVec 7) : (s.setLastSeen a q).outfrom = s.outfrom := rfl
@[simp] theorem State.setLastSeen_outto (a : Byte) (q : BitVec 7) : (s.setLastSeen a q).outto = s.outto := rfl
@[simp] theorem State.setLastSeen_localAddr (a : Byte) (q : BitVec 7) : (s.setLastSeen a q).localAddr = s.localAddr := rfl
@[simp] theorem State.setLastSeen_seq (a : Byte) (q : BitVec 7) : (s.setLastSeen a q).seq = s.seq := rfl
@[simp] theorem State.setLastSeen_lastseen (a : Byte) (q : BitVec 7) : (s.setLastSeen a q).lastseen = s.lastseen.set a.toNat q a.isLt := rfl
@[simp] theorem State.setLastSeen_faultFlag (a : Byte) (q : BitVec 7) : (s.setLastSeen a q).faultFlag = s.faultFlag := rfl
@[simp] theorem State.setLastSeen_rxq (a : Byte) (q : BitVec 7) : (s.setLastSeen a q).rxq = s.rxq := rfl
@[simp] theorem State.setLastSeen_txs (a : Byte) (q : BitVec 7) : (s.setLastSeen a q).txs = s.txs := rfl
@[simp] theorem State.setLastSeen_cmd (a : Byte) (q : BitVec 7) : (s.setLastSeen a q).cmd = s.cmd := rfl
@[simp] theorem State.setLastSeen_task (a : Byte) (q : BitVec 7) : (s.setLastSeen a q).task = s.task := rfl
@[simp] theorem State.setLastSeen_result (a : Byte) (q : BitVec 7) : (s.setLastSeen a q).result = s.result := rfl
@[simp] theorem State.setLastSeen_clock (a : Byte) (q : BitVec 7) : (s.setLastSeen a q).clock = s.clock := rfl
@[simp] theorem State.setLastSeen_agenda (a : Byte) (q : BitVec 7) : (s.setLastSeen a q).agenda = s.agenda := rfl

/-! ### setOutput -/

@[simp] theorem State.setOutput_params (bs : List Byte) : (s.setOutput bs).params = s.params := rfl
@[simp] theorem State.setOutput_crc (bs : List Byte) : (s.setOutput bs).crc = s.crc := rfl
@[simp] theorem State.setOutput_rxbuf (bs : List Byte) : (s.setOutput bs).rxbuf = s.rxbuf := rfl
@[simp] theorem State.setOutput_badcnt (bs : List Byte) : (s.setOutput bs).badcnt = s.badcnt := rfl
@[simp] theorem State.setOutput_goodcnt (bs : List Byte) : (s.setOutput bs).goodcnt = s.goodcnt := rfl
@[simp] theorem State.setOutput_txbuf (bs : List Byte) : (s.setOutput bs).txbuf = s.txbuf := rfl
@[simp] theorem State.setOutput_status (bs : List Byte) : (s.setOutput bs).status = s.status := rfl
@[simp] theorem State.setOutput_data (bs : List Byte) : (s.setOutput bs).data = s.data := rfl
@[simp] theorem State.setOutput_outbuf (bs : List Byte) : (s.setOutput bs).outbuf = bs := rfl
@[simp] theorem State.setOutput_outfrom (bs : List Byte) : (s.setOutput bs).outfrom = s.outfrom := rfl
@[simp] theorem State.setOutput_outto (bs : List Byte) : (s.setOutput bs).outto = s.outto := rfl
@[simp] theorem State.setOutput_localAddr (bs : List Byte) : (s.setOutput bs).localAddr = s.localAddr := rfl
@[simp] theorem State.setOutput_seq (bs : List Byte) : (s.setOutput bs).seq = s.seq := rfl
@[simp] theorem State.setOutput_lastseen (bs : List Byte) : (s.setOutput bs).lastseen = s.lastseen := rfl
@[simp] theorem State.setOutput_faultFlag (bs : List Byte) : (s.setOutput bs).faultFlag = s.faultFlag := rfl
@[simp] theorem State.setOutput_rxq (bs : List Byte) : (s.setOutput bs).rxq = s.rxq := rfl
@[simp] theorem State.setOutput_txs (bs : List Byte) : (s.setOutput bs).txs = s.txs := rfl
@[simp] theorem State.setOutput_cmd (bs : List Byte) : (s.setOutput bs).cmd = s.cmd := rfl
@[simp] theorem State.setOutput_task (bs : List Byte) : (s.setOutput bs).task = s.task := rfl
@[simp] theorem State.setOutput_result (bs : List Byte) : (s.setOutput bs).result = s.result := rfl
@[simp] theorem State.setOutput_clock (bs : List Byte) : (s.setOutput bs).clock = s.clock := rfl
@[simp] theorem State.setOutput_agenda (bs : List Byte) : (s.setOutput bs).agenda = s.agenda := rfl

/-! ### setOutputHeader -/

@[simp] theorem State.setOutputHeader_params (dest src : Byte) : (s.setOutputHeader dest src).params = s.params := rfl
@[simp] theorem State.setOutputHeader_crc (dest src : Byte) : (s.setOutputHeader dest src).crc = s.crc := rfl
@[simp] theorem State.setOutputHeader_rxbuf (dest src : Byte) : (s.setOutputHeader dest src).rxbuf = s.rxbuf := rfl
@[simp] theorem State.setOutputHeader_badcnt (dest src : Byte) : (s.setOutputHeader dest src).badcnt = s.badcnt := rfl
@[simp] theorem State.setOutputHeader_goodcnt (dest src : Byte) : (s.setOutputHeader dest src).goodcnt = s.goodcnt := rfl
@[simp] theorem State.setOutputHeader_txbuf (dest src : Byte) : (s.setOutputHeader dest src).txbuf = s.txbuf := rfl
@[simp] theorem State.setOutputHeader_status (dest src : Byte) : (s.setOutputHeader dest src).status = s.status := rfl
@[simp] theorem State.setOutputHeader_data (dest src : Byte) : (s.setOutputHeader dest src).data = s.data := rfl
@[simp] theorem State.setOutputHeader_outbuf (dest src : Byte) : (s.setOutputHeader dest src).outbuf = s.outbuf := rfl
@[simp] theorem State.setOutputHeader_outfrom (dest src : Byte) : (s.setOutputHeader dest src).outfrom = src := rfl
@[simp] theorem State.setOutputHeader_outto (dest src : Byte) : (s.setOutputHeader dest src).outto = dest := rfl
@[simp] theorem State.setOutputHeader_localAddr (dest src : Byte) : (s.setOutputHeader dest src).localAddr = s.localAddr := rfl
@[simp] theorem State.setOutputHeader_seq (dest src : Byte) : (s.setOutputHeader dest src).seq = s.seq := rfl
@[simp] theorem State.setOutputHeader_lastseen (dest src : Byte) : (s.setOutputHeader dest src).lastseen = s.lastseen := rfl
@[simp] theorem State.setOutputHeader_faultFlag (dest src : Byte) : (s.setOutputHeader dest src).faultFlag = s.faultFlag := rfl
@[simp] theorem State.setOutputHeader_rxq (dest src : Byte) : (s.setOutputHeader dest src).rxq = s.rxq := rfl
@[simp] theorem State.setOutputHeader_txs (dest src : Byte) : (s.setOutputHeader dest src).txs = s.txs := rfl
@[simp] theorem State.setOutputHeader_cmd (dest src : Byte) : (s.setOutputHeader dest src).cmd = s.cmd := rfl
@[simp] theorem State.setOutputHeader_task (dest src : Byte) : (s.setOutputHeader dest src).task = s.task := rfl
@[simp] theorem State.setOutputHeader_result (dest src : Byte) : (s.setOutputHeader dest src).result = s.result := rfl
@[simp] theorem State.setOutputHeader_clock (dest src : Byte) : (s.setOutputHeader dest src).clock = s.clock := rfl
@[simp] theorem State.setOutputHeader_agenda (dest src : Byte) : (s.setOutputHeader dest src).agenda = s.agenda := rfl

/-! ### txEmit -/

@[simp] theorem State.txEmit_params (bs : List Byte) : (s.txEmit bs).params = s.params := rfl
@[simp] theorem State.txEmit_crc (bs : List Byte) : (s.txEmit bs).crc = s.crc := rfl
@[simp] theorem State.txEmit_rxbuf (bs : List Byte) : (s.txEmit bs).rxbuf = s.rxbuf := rfl
@[simp] theorem State.txEmit_badcnt (bs : List Byte) : (s.txEmit bs).badcnt = s.badcnt := rfl
@[simp] theorem State.txEmit_goodcnt (bs : List Byte) : (s.txEmit bs).goodcnt = s.goodcnt := rfl
@[simp] theorem State.txEmit_txbuf (bs : List Byte) : (s.txEmit bs).txbuf = s.txbuf := rfl
@[simp] theorem State.txEmit_status (bs : List Byte) : (s.txEmit bs).status = s.status := rfl
@[simp] theorem State.txEmit_data (bs : List Byte) : (s.txEmit bs).data = s.data := rfl
@[simp] theorem State.txEmit_outbuf (bs : List Byte) : (s.txEmit bs).outbuf = s.outbuf := rfl
@[simp] theorem State.txEmit_outfrom (bs : List Byte) : (s.txEmit bs).outfrom = s.outfrom := rfl
@[simp] theorem State.txEmit_outto (bs : List Byte) : (s.txEmit bs).outto = s.outto := rfl
@[simp] theorem State.txEmit_localAddr (bs : List Byte) : (s.txEmit bs).localAddr = s.localAddr := rfl
@[simp] theorem State.txEmit_seq (bs : List Byte) : (s.txEmit bs).seq = s.seq := rfl
@[simp] theorem State.txEmit_lastseen (bs : List Byte) : (s.txEmit bs).lastseen = s.lastseen := rfl
@[simp] theorem State.txEmit_faultFlag (bs : List Byte) : (s.txEmit bs).faultFlag = s.faultFlag := rfl
@[simp] theorem State.txEmit_rxq (bs : List Byte) : (s.txEmit bs).rxq = s.rxq := rfl
@[simp] theorem State.txEmit_txs (bs : List Byte) : (s.txEmit bs).txs = s.txs ++ bs := rfl
@[simp] theorem State.txEmit_cmd (bs : List Byte) : (s.txEmit bs).cmd = s.cmd := rfl
@[simp] theorem State.txEmit_task (bs : List Byte) : (s.txEmit bs).task = s.task := rfl
@[simp] theorem State.txEmit_result (bs : List Byte) : (s.txEmit bs).result = s.result := rfl
@[simp] theorem State.txEmit_clock (bs : List Byte) : (s.txEmit bs).clock = s.clock := rfl
@[simp] theorem State.txEmit_agenda (bs : List Byte) : (s.txEmit bs).agenda = s.agenda := rfl

/-! ### emitFrame -/

@[simp] theorem State.emitFrame_params (body : List Byte) : (s.emitFrame body).params = s.params := rfl
@[simp] theorem State.emitFrame_crc (body : List Byte) : (s.emitFrame body).crc = crcOver (frameHead body) := rfl
@[simp] theorem State.emitFrame_rxbuf (body : List Byte) : (s.emitFrame body).rxbuf = s.rxbuf := rfl
@[simp] theorem State.emitFrame_badcnt (body : List Byte) : (s.emitFrame body).badcnt = s.badcnt := rfl
@[simp] theorem State.emitFrame_goodcnt (body : List Byte) : (s.emitFrame body).goodcnt = s.goodcnt := rfl
@[simp] theorem State.emitFrame_txbuf (body : List Byte) : (s.emitFrame body).txbuf = s.txbuf := rfl
@[simp] theorem State.emitFrame_status (body : List Byte) : (s.emitFrame body).status = s.status := rfl
@[simp] theorem State.emitFrame_data (body : List Byte) : (s.emitFrame body).data = s.data := rfl
@[simp] theorem State.emitFrame_outbuf (body : List Byte) : (s.emitFrame body).outbuf = s.outbuf := rfl
@[simp] theorem State.emitFrame_outfrom (body : List Byte) : (s.emitFrame body).outfrom = s.outfrom := rfl
@[simp] theorem State.emitFrame_outto (body : List Byte) : (s.emitFrame body).outto = s.outto := rfl
@[simp] theorem State.emitFrame_localAddr (body : List Byte) : (s.emitFrame body).localAddr = s.localAddr := rfl
@[simp] theorem State.emitFrame_seq (body : List Byte) : (s.emitFrame body).seq = s.seq := rfl
@[simp] theorem State.emitFrame_lastseen (body : List Byte) : (s.emitFrame body).lastseen = s.lastseen := rfl
@[simp] theorem State.emitFrame_faultFlag (body : List Byte) : (s.emitFrame body).faultFlag = s.faultFlag := rfl
@[simp] theorem State.emitFrame_rxq (body : List Byte) : (s.emitFrame body).rxq = s.rxq := rfl
@[simp] theorem State.emitFrame_txs (body : List Byte) : (s.emitFrame body).txs = s.txs ++ frameOf body := rfl
@[simp] theorem State.emitFrame_cmd (body : List Byte) : (s.emitFrame body).cmd = s.cmd := rfl
@[simp] theorem State.emitFrame_task (body : List Byte) : (s.emitFrame body).task = s.task := rfl
@[simp] theorem State.emitFrame_result (body : List Byte) : (s.emitFrame body).result = s.result := rfl
@[simp] theorem State.emitFrame_clock (body : List Byte) : (s.emitFrame body).clock = s.clock := rfl
@[simp] theorem State.emitFrame_agenda (body : List Byte) : (s.emitFrame body).agenda = s.agenda := rfl

/-! ### rxPopTo -/

@[simp] theorem State.rxPopTo_params (q : List Byte) : (s.rxPopTo q).params = s.params := rfl
@[simp] theorem State.rxPopTo_crc (q : List Byte) : (s.rxPopTo q).crc = s.crc := rfl
@[simp] theorem State.rxPopTo_rxbuf (q : List Byte) : (s.rxPopTo q).rxbuf = s.rxbuf := rfl
@[simp] theorem State.rxPopTo_badcnt (q : List Byte) : (s.rxPopTo q).badcnt = s.badcnt := rfl
@[simp] theorem State.rxPopTo_goodcnt (q : List Byte) : (s.rxPopTo q).goodcnt = s.goodcnt := rfl
@[simp] theorem State.rxPopTo_txbuf (q : List Byte) : (s.rxPopTo q).txbuf = s.txbuf := rfl
@[simp] theorem State.rxPopTo_status (q : List Byte) : (s.rxPopTo q).status = s.status := rfl
@[simp] theorem State.rxPopTo_data (q : List Byte) : (s.rxPopTo q).data = s.data := rfl
@[simp] theorem State.rxPopTo_outbuf (q : List Byte) : (s.rxPopTo q).outbuf = s.outbuf := rfl
@[simp] theorem State.rxPopTo_outfrom (q : List Byte) : (s.rxPopTo q).outfrom = s.outfrom := rfl
@[simp] theorem State.rxPopTo_outto (q : List Byte) : (s.rxPopTo q).outto = s.outto := rfl
@[simp] theorem State.rxPopTo_localAddr (q : List Byte) : (s.rxPopTo q).localAddr = s.localAddr := rfl
@[simp] theorem State.rxPopTo_seq (q : List Byte) : (s.rxPopTo q).seq = s.seq := rfl
@[simp] theorem State.rxPopTo_lastseen (q : List Byte) : (s.rxPopTo q).lastseen = s.lastseen := rfl
@[simp] theorem State.rxPopTo_faultFlag (q : List Byte) : (s.rxPopTo q).faultFlag = s.faultFlag := rfl
@[simp] theorem State.rxPopTo_rxq (q : List Byte) : (s.rxPopTo q).rxq = q := rfl
@[simp] theorem State.rxPopTo_txs (q : List Byte) : (s.rxPopTo q).txs = s.txs := rfl
@[simp] theorem State.rxPopTo_cmd (q : List Byte) : (s.rxPopTo q).cmd = s.cmd := rfl
@[simp] theorem State.rxPopTo_task (q : List Byte) : (s.rxPopTo q).task = s.task := rfl
@[simp] theorem State.rxPopTo_result (q : List Byte) : (s.rxPopTo q).result = s.result := rfl
@[simp] theorem State.rxPopTo_clock (q : List Byte) : (s.rxPopTo q).clock = s.clock := rfl
@[simp] theorem State.rxPopTo_agenda (q : List Byte) : (s.rxPopTo q).agenda = s.agenda := rfl

/-! ### rxDiscardPending -/

@[simp] theorem State.rxDiscardPending_params : (s.rxDiscardPending).params = s.params := rfl
@[simp] theorem State.rxDiscardPending_crc : (s.rxDiscardPending).crc = s.crc := rfl
@[simp] theorem State.rxDiscardPending_rxbuf : (s.rxDiscardPending).rxbuf = s.rxbuf := rfl
@[simp] theorem State.rxDiscardPending_badcnt : (s.rxDiscardPending).badcnt = s.badcnt := rfl
@[simp] theorem State.rxDiscardPending_goodcnt : (s.rxDiscardPending).goodcnt = s.goodcnt := rfl
@[simp] theorem State.rxDiscardPending_txbuf : (s.rxDiscardPending).txbuf = s.txbuf := rfl
@[simp] theorem State.rxDiscardPending_status : (s.rxDiscardPending).status = s.status := rfl
@[simp] theorem State.rxDiscardPending_data : (s.rxDiscardPending).data = s.data := rfl
@[simp] theorem State.rxDiscardPending_outbuf : (s.rxDiscardPending).outbuf = s.outbuf := rfl
@[simp] theorem State.rxDiscardPending_outfrom : (s.rxDiscardPending).outfrom = s.outfrom := rfl
@[simp] theorem State.rxDiscardPending_outto : (s.rxDiscardPending).outto = s.outto := rfl
@[simp] theorem State.rxDiscardPending_localAddr : (s.rxDiscardPending).localAddr = s.localAddr := rfl
@[simp] theorem State.rxDiscardPending_seq : (s.rxDiscardPending).seq = s.seq := rfl
@[simp] theorem State.rxDiscardPending_lastseen : (s.rxDiscardPending).lastseen = s.lastseen := rfl
@[simp] theorem State.rxDiscardPending_faultFlag : (s.rxDiscardPending).faultFlag = s.faultFlag := rfl
@[simp] theorem State.rxDiscardPending_rxq : (s.rxDiscardPending).rxq = [] := rfl
@[simp] theorem State.rxDiscardPending_txs : (s.rxDiscardPending).txs = s.txs := rfl
@[simp] theorem State.rxDiscardPending_cmd : (s.rxDiscardPending).cmd = s.cmd := rfl
@[simp] theorem State.rxDiscardPending_task : (s.rxDiscardPending).task = s.task := rfl
@[simp] theorem State.rxDiscardPending_result : (s.rxDiscardPending).result = s.result := rfl
@[simp] theorem State.rxDiscardPending_clock : (s.rxDiscardPending).clock = s.clock := rfl
@[simp] theorem State.rxDiscardPending_agenda : (s.rxDiscardPending).agenda = s.agenda := rfl

/-! ### rxPush -/

@[simp] theorem State.rxPush_params (v : Byte) : (s.rxPush v).params = s.params := rfl
@[simp] theorem State.rxPush_crc (v : Byte) : (s.rxPush v).crc = s.crc := rfl
@[simp] theorem State.rxPush_rxbuf (v : Byte) : (s.rxPush v).rxbuf = s.rxbuf ++ [v] := rfl
@[simp] theorem State.rxPush_badcnt (v : Byte) : (s.rxPush v).badcnt = s.badcnt := rfl
@[simp] theorem State.rxPush_goodcnt (v : Byte) : (s.rxPush v).goodcnt = s.goodcnt := rfl
@[simp] theorem State.rxPush_txbuf (v : Byte) : (s.rxPush v).txbuf = s.txbuf := rfl
@[simp] theorem State.rxPush_status (v : Byte) : (s.rxPush v).status = s.status := rfl
@[simp] theorem State.rxPush_data (v : Byte) : (s.rxPush v).data = s.data := rfl
@[simp] theorem State.rxPush_outbuf (v : Byte) : (s.rxPush v).outbuf = s.outbuf := rfl
@[simp] theorem State.rxPush_outfrom (v : Byte) : (s.rxPush v).outfrom = s.outfrom := rfl
@[simp] theorem State.rxPush_outto (v : Byte) : (s.rxPush v).outto = s.outto := rfl
@[simp] theorem State.rxPush_localAddr (v : Byte) : (s.rxPush v).localAddr = s.localAddr := rfl
@[simp] theorem State.rxPush_seq (v : Byte) : (s.rxPush v).seq = s.seq := rfl
@[simp] theorem State.rxPush_lastseen (v : Byte) : (s.rxPush v).lastseen = s.lastseen := rfl
@[simp] theorem State.rxPush_faultFlag (v : Byte) : (s.rxPush v).faultFlag = s.faultFlag := rfl
@[simp] theorem State.rxPush_rxq (v : Byte) : (s.rxPush v).rxq = s.rxq := rfl
@[simp] theorem State.rxPush_txs (v : Byte) : (s.rxPush v).txs = s.txs := rfl
@[simp] theorem State.rxPush_cmd (v : Byte) : (s.rxPush v).cmd = s.cmd := rfl
@[simp] theorem State.rxPush_task (v : Byte) : (s.rxPush v).task = s.task := rfl
@[simp] theorem State.rxPush_result (v : Byte) : (s.rxPush v).result = s.result := rfl
@[simp] theorem State.rxPush_clock (v : Byte) : (s.rxPush v).clock = s.clock := rfl
@[simp] theorem State.rxPush_agenda (v : Byte) : (s.rxPush v).agenda = s.agenda := rfl

/-! ### rxReject -/

@[simp] theorem State.rxReject_params : (s.rxReject).params = s.params := rfl
@[simp] theorem State.rxReject_crc : (s.rxReject).crc = s.crc := rfl
@[simp] theorem State.rxReject_rxbuf : (s.rxReject).rxbuf = s.rxbuf := rfl
@[simp] theorem State.rxReject_badcnt : (s.rxReject).badcnt = bump s.params.cntW s.badcnt := rfl
@[simp] theorem State.rxReject_goodcnt : (s.rxReject).goodcnt = s.goodcnt := rfl
@[simp] theorem State.rxReject_txbuf : (s.rxReject).txbuf = s.txbuf := rfl
@[simp] theorem State.rxReject_status : (s.rxReject).status = s.status := rfl
@[simp] theorem State.rxReject_data : (s.rxReject).data = s.data := rfl
@[simp] theorem State.rxReject_outbuf : (s.rxReject).outbuf = s.outbuf := rfl
@[simp] theorem State.rxReject_outfrom : (s.rxReject).outfrom = s.outfrom := rfl
@[simp] theorem State.rxReject_outto : (s.rxReject).outto = s.outto := rfl
@[simp] theorem State.rxReject_localAddr : (s.rxReject).localAddr = s.localAddr := rfl
@[simp] theorem State.rxReject_seq : (s.rxReject).seq = s.seq := rfl
@[simp] theorem State.rxReject_lastseen : (s.rxReject).lastseen = s.lastseen := rfl
@[simp] theorem State.rxReject_faultFlag : (s.rxReject).faultFlag = s.faultFlag := rfl
@[simp] theorem State.rxReject_rxq : (s.rxReject).rxq = [] := rfl
@[simp] theorem State.rxReject_txs : (s.rxReject).txs = s.txs := rfl
@[simp] theorem State.rxReject_cmd : (s.rxReject).cmd = s.cmd := rfl
@[simp] theorem State.rxReject_task : (s.rxReject).task = s.task := rfl
@[simp] theorem State.rxReject_result : (s.rxReject).result = s.result := rfl
@[simp] theorem State.rxReject_clock : (s.rxReject).clock = s.clock := rfl
@[simp] theorem State.rxReject_agenda : (s.rxReject).agenda = s.agenda := rfl

/-! ### rxTake -/

@[simp] theorem State.rxTake_params : (s.rxTake).params = s.params := rfl
@[simp] theorem State.rxTake_crc : (s.rxTake).crc = crcOver s.bufferedFrame := rfl
@[simp] theorem State.rxTake_rxbuf : (s.rxTake).rxbuf = [] := rfl
@[simp] theorem State.rxTake_badcnt : (s.rxTake).badcnt = s.badcnt := rfl
@[simp] theorem State.rxTake_goodcnt : (s.rxTake).goodcnt = if goodFrame s.bufferedFrame then bump s.params.cntW s.goodcnt else s.goodcnt := rfl
@[simp] theorem State.rxTake_txbuf : (s.rxTake).txbuf = s.txbuf := rfl
@[simp] theorem State.rxTake_status : (s.rxTake).status = s.status := rfl
@[simp] theorem State.rxTake_data : (s.rxTake).data = s.data := rfl
@[simp] theorem State.rxTake_outbuf : (s.rxTake).outbuf = s.outbuf := rfl
@[simp] theorem State.rxTake_outfrom : (s.rxTake).outfrom = s.outfrom := rfl
@[simp] theorem State.rxTake_outto : (s.rxTake).outto = s.outto := rfl
@[simp] theorem State.rxTake_localAddr : (s.rxTake).localAddr = s.localAddr := rfl
@[simp] theorem State.rxTake_seq : (s.rxTake).seq = s.seq := rfl
@[simp] theorem State.rxTake_lastseen : (s.rxTake).lastseen = s.lastseen := rfl
@[simp] theorem State.rxTake_faultFlag : (s.rxTake).faultFlag = s.faultFlag := rfl
@[simp] theorem State.rxTake_rxq : (s.rxTake).rxq = s.rxq := rfl
@[simp] theorem State.rxTake_txs : (s.rxTake).txs = s.txs := rfl
@[simp] theorem State.rxTake_cmd : (s.rxTake).cmd = s.cmd := rfl
@[simp] theorem State.rxTake_task : (s.rxTake).task = s.task := rfl
@[simp] theorem State.rxTake_result : (s.rxTake).result = s.result := rfl
@[simp] theorem State.rxTake_clock : (s.rxTake).clock = s.clock := rfl
@[simp] theorem State.rxTake_agenda : (s.rxTake).agenda = s.agenda := rfl

/-! ### takeCommand -/

@[simp] theorem State.takeCommand_params : (s.takeCommand).params = s.params := rfl
@[simp] theorem State.takeCommand_crc : (s.takeCommand).crc = s.crc := rfl
@[simp] theorem State.takeCommand_rxbuf : (s.takeCommand).rxbuf = s.rxbuf := rfl
@[simp] theorem State.takeCommand_badcnt : (s.takeCommand).badcnt = s.badcnt := rfl
@[simp] theorem State.takeCommand_goodcnt : (s.takeCommand).goodcnt = s.goodcnt := rfl
@[simp] theorem State.takeCommand_txbuf : (s.takeCommand).txbuf = s.txbuf := rfl
@[simp] theorem State.takeCommand_status : (s.takeCommand).status = s.status := rfl
@[simp] theorem State.takeCommand_data : (s.takeCommand).data = s.data := rfl
@[simp] theorem State.takeCommand_outbuf : (s.takeCommand).outbuf = s.outbuf := rfl
@[simp] theorem State.takeCommand_outfrom : (s.takeCommand).outfrom = s.outfrom := rfl
@[simp] theorem State.takeCommand_outto : (s.takeCommand).outto = s.outto := rfl
@[simp] theorem State.takeCommand_localAddr : (s.takeCommand).localAddr = s.localAddr := rfl
@[simp] theorem State.takeCommand_seq : (s.takeCommand).seq = s.seq := rfl
@[simp] theorem State.takeCommand_lastseen : (s.takeCommand).lastseen = s.lastseen := rfl
@[simp] theorem State.takeCommand_faultFlag : (s.takeCommand).faultFlag = s.faultFlag := rfl
@[simp] theorem State.takeCommand_rxq : (s.takeCommand).rxq = s.rxq := rfl
@[simp] theorem State.takeCommand_txs : (s.takeCommand).txs = s.txs := rfl
@[simp] theorem State.takeCommand_cmd : (s.takeCommand).cmd = none := rfl
@[simp] theorem State.takeCommand_task : (s.takeCommand).task = s.task := rfl
@[simp] theorem State.takeCommand_result : (s.takeCommand).result = s.result := rfl
@[simp] theorem State.takeCommand_clock : (s.takeCommand).clock = s.clock := rfl
@[simp] theorem State.takeCommand_agenda : (s.takeCommand).agenda = s.agenda := rfl

/-! ### present -/

@[simp] theorem State.present_params (w : Word) : (s.present w).params = s.params := rfl
@[simp] theorem State.present_crc (w : Word) : (s.present w).crc = s.crc := rfl
@[simp] theorem State.present_rxbuf (w : Word) : (s.present w).rxbuf = s.rxbuf := rfl
@[simp] theorem State.present_badcnt (w : Word) : (s.present w).badcnt = s.badcnt := rfl
@[simp] theorem State.present_goodcnt (w : Word) : (s.present w).goodcnt = s.goodcnt := rfl
@[simp] theorem State.present_txbuf (w : Word) : (s.present w).txbuf = s.txbuf := rfl
@[simp] theorem State.present_status (w : Word) : (s.present w).status = s.status := rfl
@[simp] theorem State.present_data (w : Word) : (s.present w).data = s.data := rfl
@[simp] theorem State.present_outbuf (w : Word) : (s.present w).outbuf = s.outbuf := rfl
@[simp] theorem State.present_outfrom (w : Word) : (s.present w).outfrom = s.outfrom := rfl
@[simp] theorem State.present_outto (w : Word) : (s.present w).outto = s.outto := rfl
@[simp] theorem State.present_localAddr (w : Word) : (s.present w).localAddr = s.localAddr := rfl
@[simp] theorem State.present_seq (w : Word) : (s.present w).seq = s.seq := rfl
@[simp] theorem State.present_lastseen (w : Word) : (s.present w).lastseen = s.lastseen := rfl
@[simp] theorem State.present_faultFlag (w : Word) : (s.present w).faultFlag = s.faultFlag := rfl
@[simp] theorem State.present_rxq (w : Word) : (s.present w).rxq = s.rxq := rfl
@[simp] theorem State.present_txs (w : Word) : (s.present w).txs = s.txs := rfl
@[simp] theorem State.present_cmd (w : Word) : (s.present w).cmd = some w := rfl
@[simp] theorem State.present_task (w : Word) : (s.present w).task = s.task := rfl
@[simp] theorem State.present_result (w : Word) : (s.present w).result = s.result := rfl
@[simp] theorem State.present_clock (w : Word) : (s.present w).clock = s.clock := rfl
@[simp] theorem State.present_agenda (w : Word) : (s.present w).agenda = s.agenda := rfl

/-! ### issue -/

@[simp] theorem State.issue_params (i : Instr) (t : HostTask) : (s.issue i t).params = s.params := rfl
@[simp] theorem State.issue_crc (i : Instr) (t : HostTask) : (s.issue i t).crc = s.crc := rfl
@[simp] theorem State.issue_rxbuf (i : Instr) (t : HostTask) : (s.issue i t).rxbuf = s.rxbuf := rfl
@[simp] theorem State.issue_badcnt (i : Instr) (t : HostTask) : (s.issue i t).badcnt = s.badcnt := rfl
@[simp] theorem State.issue_goodcnt (i : Instr) (t : HostTask) : (s.issue i t).goodcnt = s.goodcnt := rfl
@[simp] theorem State.issue_txbuf (i : Instr) (t : HostTask) : (s.issue i t).txbuf = s.txbuf := rfl
@[simp] theorem State.issue_status (i : Instr) (t : HostTask) : (s.issue i t).status = s.status := rfl
@[simp] theorem State.issue_data (i : Instr) (t : HostTask) : (s.issue i t).data = s.data := rfl
@[simp] theorem State.issue_outbuf (i : Instr) (t : HostTask) : (s.issue i t).outbuf = s.outbuf := rfl
@[simp] theorem State.issue_outfrom (i : Instr) (t : HostTask) : (s.issue i t).outfrom = s.outfrom := rfl
@[simp] theorem State.issue_outto (i : Instr) (t : HostTask) : (s.issue i t).outto = s.outto := rfl
@[simp] theorem State.issue_localAddr (i : Instr) (t : HostTask) : (s.issue i t).localAddr = s.localAddr := rfl
@[simp] theorem State.issue_seq (i : Instr) (t : HostTask) : (s.issue i t).seq = s.seq := rfl
@[simp] theorem State.issue_lastseen (i : Instr) (t : HostTask) : (s.issue i t).lastseen = s.lastseen := rfl
@[simp] theorem State.issue_faultFlag (i : Instr) (t : HostTask) : (s.issue i t).faultFlag = s.faultFlag := rfl
@[simp] theorem State.issue_rxq (i : Instr) (t : HostTask) : (s.issue i t).rxq = s.rxq := rfl
@[simp] theorem State.issue_txs (i : Instr) (t : HostTask) : (s.issue i t).txs = s.txs := rfl
@[simp] theorem State.issue_cmd (i : Instr) (t : HostTask) : (s.issue i t).cmd = some (encode i) := rfl
@[simp] theorem State.issue_task (i : Instr) (t : HostTask) : (s.issue i t).task = t := rfl
@[simp] theorem State.issue_result (i : Instr) (t : HostTask) : (s.issue i t).result = s.result := rfl
@[simp] theorem State.issue_clock (i : Instr) (t : HostTask) : (s.issue i t).clock = s.clock := rfl
@[simp] theorem State.issue_agenda (i : Instr) (t : HostTask) : (s.issue i t).agenda = s.agenda := rfl

/-! ### finish -/

@[simp] theorem State.finish_params (r : HostResult) : (s.finish r).params = s.params := rfl
@[simp] theorem State.finish_crc (r : HostResult) : (s.finish r).crc = s.crc := rfl
@[simp] theorem State.finish_rxbuf (r : HostResult) : (s.finish r).rxbuf = s.rxbuf := rfl
@[simp] theorem State.finish_badcnt (r : HostResult) : (s.finish r).badcnt = s.badcnt := rfl
@[simp] theorem State.finish_goodcnt (r : HostResult) : (s.finish r).goodcnt = s.goodcnt := rfl
@[simp] theorem State.finish_txbuf (r : HostResult) : (s.finish r).txbuf = s.txbuf := rfl
@[simp] theorem State.finish_status (r : HostResult) : (s.finish r).status = s.status := rfl
@[simp] theorem State.finish_data (r : HostResult) : (s.finish r).data = s.data := rfl
@[simp] theorem State.finish_outbuf (r : HostResult) : (s.finish r).outbuf = s.outbuf := rfl
@[simp] theorem State.finish_outfrom (r : HostResult) : (s.finish r).outfrom = s.outfrom := rfl
@[simp] theorem State.finish_outto (r : HostResult) : (s.finish r).outto = s.outto := rfl
@[simp] theorem State.finish_localAddr (r : HostResult) : (s.finish r).localAddr = s.localAddr := rfl
@[simp] theorem State.finish_seq (r : HostResult) : (s.finish r).seq = s.seq := rfl
@[simp] theorem State.finish_lastseen (r : HostResult) : (s.finish r).lastseen = s.lastseen := rfl
@[simp] theorem State.finish_faultFlag (r : HostResult) : (s.finish r).faultFlag = s.faultFlag := rfl
@[simp] theorem State.finish_rxq (r : HostResult) : (s.finish r).rxq = s.rxq := rfl
@[simp] theorem State.finish_txs (r : HostResult) : (s.finish r).txs = s.txs := rfl
@[simp] theorem State.finish_cmd (r : HostResult) : (s.finish r).cmd = s.cmd := rfl
@[simp] theorem State.finish_task (r : HostResult) : (s.finish r).task = .idle := rfl
@[simp] theorem State.finish_result (r : HostResult) : (s.finish r).result = some r := rfl
@[simp] theorem State.finish_clock (r : HostResult) : (s.finish r).clock = s.clock := rfl
@[simp] theorem State.finish_agenda (r : HostResult) : (s.finish r).agenda = s.agenda := rfl

/-! ### arrive -/

@[simp] theorem State.arrive_params (bs : List Byte) : (s.arrive bs).params = s.params := rfl
@[simp] theorem State.arrive_crc (bs : List Byte) : (s.arrive bs).crc = s.crc := rfl
@[simp] theorem State.arrive_rxbuf (bs : List Byte) : (s.arrive bs).rxbuf = s.rxbuf := rfl
@[simp] theorem State.arrive_badcnt (bs : List Byte) : (s.arrive bs).badcnt = s.badcnt := rfl
@[simp] theorem State.arrive_goodcnt (bs : List Byte) : (s.arrive bs).goodcnt = s.goodcnt := rfl
@[simp] theorem State.arrive_txbuf (bs : List Byte) : (s.arrive bs).txbuf = s.txbuf := rfl
@[simp] theorem State.arrive_status (bs : List Byte) : (s.arrive bs).status = s.status := rfl
@[simp] theorem State.arrive_data (bs : List Byte) : (s.arrive bs).data = s.data := rfl
@[simp] theorem State.arrive_outbuf (bs : List Byte) : (s.arrive bs).outbuf = s.outbuf := rfl
@[simp] theorem State.arrive_outfrom (bs : List Byte) : (s.arrive bs).outfrom = s.outfrom := rfl
@[simp] theorem State.arrive_outto (bs : List Byte) : (s.arrive bs).outto = s.outto := rfl
@[simp] theorem State.arrive_localAddr (bs : List Byte) : (s.arrive bs).localAddr = s.localAddr := rfl
@[simp] theorem State.arrive_seq (bs : List Byte) : (s.arrive bs).seq = s.seq := rfl
@[simp] theorem State.arrive_lastseen (bs : List Byte) : (s.arrive bs).lastseen = s.lastseen := rfl
@[simp] theorem State.arrive_faultFlag (bs : List Byte) : (s.arrive bs).faultFlag = s.faultFlag := rfl
@[simp] theorem State.arrive_rxq (bs : List Byte) : (s.arrive bs).rxq = s.rxq ++ bs := rfl
@[simp] theorem State.arrive_txs (bs : List Byte) : (s.arrive bs).txs = s.txs := rfl
@[simp] theorem State.arrive_cmd (bs : List Byte) : (s.arrive bs).cmd = s.cmd := rfl
@[simp] theorem State.arrive_task (bs : List Byte) : (s.arrive bs).task = s.task := rfl
@[simp] theorem State.arrive_result (bs : List Byte) : (s.arrive bs).result = s.result := rfl
@[simp] theorem State.arrive_clock (bs : List Byte) : (s.arrive bs).clock = s.clock := rfl
@[simp] theorem State.arrive_agenda (bs : List Byte) : (s.arrive bs).agenda = s.agenda := rfl

/-! ### consume -/

@[simp] theorem State.consume_params (n : Nat) : (s.consume n).params = s.params := rfl
@[simp] theorem State.consume_crc (n : Nat) : (s.consume n).crc = s.crc := rfl
@[simp] theorem State.consume_rxbuf (n : Nat) : (s.consume n).rxbuf = s.rxbuf := rfl
@[simp] theorem State.consume_badcnt (n : Nat) : (s.consume n).badcnt = s.badcnt := rfl
@[simp] theorem State.consume_goodcnt (n : Nat) : (s.consume n).goodcnt = s.goodcnt := rfl
@[simp] theorem State.consume_txbuf (n : Nat) : (s.consume n).txbuf = s.txbuf := rfl
@[simp] theorem State.consume_status (n : Nat) : (s.consume n).status = s.status := rfl
@[simp] theorem State.consume_data (n : Nat) : (s.consume n).data = s.data := rfl
@[simp] theorem State.consume_outbuf (n : Nat) : (s.consume n).outbuf = s.outbuf := rfl
@[simp] theorem State.consume_outfrom (n : Nat) : (s.consume n).outfrom = s.outfrom := rfl
@[simp] theorem State.consume_outto (n : Nat) : (s.consume n).outto = s.outto := rfl
@[simp] theorem State.consume_localAddr (n : Nat) : (s.consume n).localAddr = s.localAddr := rfl
@[simp] theorem State.consume_seq (n : Nat) : (s.consume n).seq = s.seq := rfl
@[simp] theorem State.consume_lastseen (n : Nat) : (s.consume n).lastseen = s.lastseen := rfl
@[simp] theorem State.consume_faultFlag (n : Nat) : (s.consume n).faultFlag = s.faultFlag := rfl
@[simp] theorem State.consume_rxq (n : Nat) : (s.consume n).rxq = s.rxq := rfl
@[simp] theorem State.consume_txs (n : Nat) : (s.consume n).txs = s.txs.drop n := rfl
@[simp] theorem State.consume_cmd (n : Nat) : (s.consume n).cmd = s.cmd := rfl
@[simp] theorem State.consume_task (n : Nat) : (s.consume n).task = s.task := rfl
@[simp] theorem State.consume_result (n : Nat) : (s.consume n).result = s.result := rfl
@[simp] theorem State.consume_clock (n : Nat) : (s.consume n).clock = s.clock := rfl
@[simp] theorem State.consume_agenda (n : Nat) : (s.consume n).agenda = s.agenda := rfl

/-! ### surround -/

@[simp] theorem State.surround_params (e : Surroundings) : (s.surround e).params = s.params := rfl
@[simp] theorem State.surround_crc (e : Surroundings) : (s.surround e).crc = s.crc := rfl
@[simp] theorem State.surround_rxbuf (e : Surroundings) : (s.surround e).rxbuf = s.rxbuf := rfl
@[simp] theorem State.surround_badcnt (e : Surroundings) : (s.surround e).badcnt = s.badcnt := rfl
@[simp] theorem State.surround_goodcnt (e : Surroundings) : (s.surround e).goodcnt = s.goodcnt := rfl
@[simp] theorem State.surround_txbuf (e : Surroundings) : (s.surround e).txbuf = s.txbuf := rfl
@[simp] theorem State.surround_status (e : Surroundings) : (s.surround e).status = s.status := rfl
@[simp] theorem State.surround_data (e : Surroundings) : (s.surround e).data = s.data := rfl
@[simp] theorem State.surround_outbuf (e : Surroundings) : (s.surround e).outbuf = s.outbuf := rfl
@[simp] theorem State.surround_outfrom (e : Surroundings) : (s.surround e).outfrom = s.outfrom := rfl
@[simp] theorem State.surround_outto (e : Surroundings) : (s.surround e).outto = s.outto := rfl
@[simp] theorem State.surround_localAddr (e : Surroundings) : (s.surround e).localAddr = s.localAddr := rfl
@[simp] theorem State.surround_seq (e : Surroundings) : (s.surround e).seq = s.seq := rfl
@[simp] theorem State.surround_lastseen (e : Surroundings) : (s.surround e).lastseen = s.lastseen := rfl
@[simp] theorem State.surround_faultFlag (e : Surroundings) : (s.surround e).faultFlag = s.faultFlag := rfl
@[simp] theorem State.surround_rxq (e : Surroundings) : (s.surround e).rxq = s.rxq ++ e.arrives := rfl
@[simp] theorem State.surround_txs (e : Surroundings) : (s.surround e).txs = s.txs.drop e.consumes := rfl
@[simp] theorem State.surround_cmd (e : Surroundings) : (s.surround e).cmd = s.cmd := rfl
@[simp] theorem State.surround_task (e : Surroundings) : (s.surround e).task = s.task := rfl
@[simp] theorem State.surround_result (e : Surroundings) : (s.surround e).result = s.result := rfl
@[simp] theorem State.surround_clock (e : Surroundings) : (s.surround e).clock = s.clock + e.ms := rfl
@[simp] theorem State.surround_agenda (e : Surroundings) : (s.surround e).agenda = s.agenda ++ e.asks.filter Event.needsIdleHost := rfl

end Sys2Proof.Machine
end

