-- ==== Sys2Proof/Laws/Ops.lean ====
section
/-! SUPPORT. What each shared operation can do, said once: raise Fault, the buffer accessors, emit_frame, the transmits'
common part, rx_pull, rx_take, the receives' common part, the acknowledgement. -/

namespace Sys2Proof.Machine

/-! ### LASTSEEN -/

@[simp] theorem lastSeen_setLastSeen_same (s : State) (a : Byte) (q : BitVec 7) :
    (s.setLastSeen a q).lastSeen a = q := by
  simp [State.lastSeen]

theorem lastSeen_setLastSeen_other (s : State) {a b : Byte} (q : BitVec 7) (h : b ≠ a) :
    (s.setLastSeen a q).lastSeen b = s.lastSeen b := by
  have hne : a.toNat ≠ b.toNat := fun e => h (BitVec.eq_of_toNat_eq e.symm)
  simp [State.lastSeen, hne]

/-! ### Counters -/

/-- A counter stays within its width (R28, R29). -/
theorem bump_lt (w : Nat) (c : Half) : (bump w c).toNat < 2 ^ w := by
  unfold bump
  have h : (c.toNat + 1) % 2 ^ w < 2 ^ w := Nat.mod_lt _ (by positivity)
  simp only [BitVec.toNat_ofNat]
  exact lt_of_le_of_lt (Nat.mod_le _ _) h

/-! ### rx_pull -/

/-- Everything rx_pull can do: it writes RXQ, RXBUF and BADCNT and nothing else (R124). -/
theorem rxPullLoop_frame (q : List Byte) : ∀ s : State,
    ∃ q' buf n, State.rxPullLoop q s = { s with rxq := q', rxbuf := buf, badcnt := n } := by
  induction q with
  | nil => intro s; exact ⟨_, _, _, rfl⟩
  | cons v q ih =>
    intro s
    simp only [State.rxPullLoop]
    split_ifs
    · exact ⟨_, _, _, rfl⟩
    · obtain ⟨q', buf, n, h⟩ := ih ((s.rxPopTo q).rxPush v)
      exact ⟨q', buf, n, h⟩
    · exact ⟨_, _, _, rfl⟩
    · obtain ⟨q', buf, n, h⟩ := ih ((s.rxPopTo q).rxPush v)
      exact ⟨q', buf, n, h⟩

theorem rxPull_frame (s : State) : ∃ q' buf n, s.rxPull = { s with rxq := q', rxbuf := buf, badcnt := n } :=
  rxPullLoop_frame s.rxq s

@[simp] theorem State.rxPull_params (s : State) : s.rxPull.params = s.params := by
  obtain ⟨_, _, _, h⟩ := rxPull_frame s; rw [h]
@[simp] theorem State.rxPull_crc (s : State) : s.rxPull.crc = s.crc := by
  obtain ⟨_, _, _, h⟩ := rxPull_frame s; rw [h]
@[simp] theorem State.rxPull_goodcnt (s : State) : s.rxPull.goodcnt = s.goodcnt := by
  obtain ⟨_, _, _, h⟩ := rxPull_frame s; rw [h]
@[simp] theorem State.rxPull_txbuf (s : State) : s.rxPull.txbuf = s.txbuf := by
  obtain ⟨_, _, _, h⟩ := rxPull_frame s; rw [h]
@[simp] theorem State.rxPull_status (s : State) : s.rxPull.status = s.status := by
  obtain ⟨_, _, _, h⟩ := rxPull_frame s; rw [h]
@[simp] theorem State.rxPull_data (s : State) : s.rxPull.data = s.data := by
  obtain ⟨_, _, _, h⟩ := rxPull_frame s; rw [h]
@[simp] theorem State.rxPull_outbuf (s : State) : s.rxPull.outbuf = s.outbuf := by
  obtain ⟨_, _, _, h⟩ := rxPull_frame s; rw [h]
@[simp] theorem State.rxPull_outfrom (s : State) : s.rxPull.outfrom = s.outfrom := by
  obtain ⟨_, _, _, h⟩ := rxPull_frame s; rw [h]
@[simp] theorem State.rxPull_outto (s : State) : s.rxPull.outto = s.outto := by
  obtain ⟨_, _, _, h⟩ := rxPull_frame s; rw [h]
@[simp] theorem State.rxPull_localAddr (s : State) : s.rxPull.localAddr = s.localAddr := by
  obtain ⟨_, _, _, h⟩ := rxPull_frame s; rw [h]
@[simp] theorem State.rxPull_seq (s : State) : s.rxPull.seq = s.seq := by
  obtain ⟨_, _, _, h⟩ := rxPull_frame s; rw [h]
@[simp] theorem State.rxPull_lastseen (s : State) : s.rxPull.lastseen = s.lastseen := by
  obtain ⟨_, _, _, h⟩ := rxPull_frame s; rw [h]
@[simp] theorem State.rxPull_faultFlag (s : State) : s.rxPull.faultFlag = s.faultFlag := by
  obtain ⟨_, _, _, h⟩ := rxPull_frame s; rw [h]
@[simp] theorem State.rxPull_txs (s : State) : s.rxPull.txs = s.txs := by
  obtain ⟨_, _, _, h⟩ := rxPull_frame s; rw [h]
@[simp] theorem State.rxPull_cmd (s : State) : s.rxPull.cmd = s.cmd := by
  obtain ⟨_, _, _, h⟩ := rxPull_frame s; rw [h]
@[simp] theorem State.rxPull_task (s : State) : s.rxPull.task = s.task := by
  obtain ⟨_, _, _, h⟩ := rxPull_frame s; rw [h]
@[simp] theorem State.rxPull_result (s : State) : s.rxPull.result = s.result := by
  obtain ⟨_, _, _, h⟩ := rxPull_frame s; rw [h]
@[simp] theorem State.rxPull_clock (s : State) : s.rxPull.clock = s.clock := by
  obtain ⟨_, _, _, h⟩ := rxPull_frame s; rw [h]
@[simp] theorem State.rxPull_agenda (s : State) : s.rxPull.agenda = s.agenda := by
  obtain ⟨_, _, _, h⟩ := rxPull_frame s; rw [h]

/-- One pass of rx_pull's loop that accepts its byte: the buffer is not complete, and it is not empty or the byte is a
plausible LEN (R124). -/
theorem rxPullLoop_accept {s : State} {v : Byte} (q : List Byte) (hc : s.complete = false)
    (hp : s.rxbuf ≠ [] ∨ plausible s.params v = true) :
    State.rxPullLoop (v :: q) s = State.rxPullLoop q ((s.rxPopTo q).rxPush v) := by
  rw [State.rxPullLoop]
  by_cases hb : s.rxbuf = []
  · have hp' : plausible s.params v = true := hp.resolve_left (fun h => h hb)
    simp [hc, State.rxcount, hb, hp']
  · simp [hc, State.rxcount, hb]

/-- One pass of rx_pull's loop that rejects its byte: an empty buffer and an implausible LEN (R124, R131). -/
theorem rxPullLoop_reject {s : State} {v : Byte} (q : List Byte) (hb : s.rxbuf = [])
    (hp : plausible s.params v = false) :
    State.rxPullLoop (v :: q) s = (s.rxPopTo q).rxReject := by
  rw [State.rxPullLoop]
  simp [State.complete, State.rxcount, hb, hp]

/-- The test of R27 on a buffer whose first byte is `len`. -/
theorem complete_cons {s : State} {len : Byte} {tail : List Byte} (hb : s.rxbuf = len :: tail) :
    s.complete = decide ((len :: tail).length = len.toNat) := by
  unfold State.complete
  rw [hb]
  simp [State.rxcount, hb, beq_eq_decide]

@[simp] theorem complete_nil {s : State} (hb : s.rxbuf = []) : s.complete = false := by
  unfold State.complete
  rw [hb]

theorem plausible_iff (p : Params) (v : Byte) : plausible p v = true ↔ 4 ≤ v.toNat ∧ v.toNat ≤ p.maxFrameLen := by
  rw [plausible, Bool.and_eq_true, decide_eq_true_iff, decide_eq_true_iff, minLen]

/-- A complete buffer pulls nothing (R124). -/
theorem rxPull_of_complete {s : State} (h : s.complete = true) : s.rxPull = s := by
  unfold State.rxPull
  cases hq : s.rxq with
  | nil => rfl
  | cons v q => simp [State.rxPullLoop, h]

/-- RXQ is taken from its head: what rx_pull leaves of it is a suffix (R56, R60). -/
theorem rxPullLoop_suffix (q : List Byte) : ∀ s : State, s.rxq = q → (State.rxPullLoop q s).rxq <:+ q := by
  induction q with
  | nil => intro s h; simp [State.rxPullLoop, h]
  | cons v q ih =>
    intro s h
    simp only [State.rxPullLoop]
    split_ifs
    · rw [h]
    · exact (ih _ (by simp)).trans (List.suffix_cons v q)
    · simp
    · exact (ih _ (by simp)).trans (List.suffix_cons v q)

theorem rxPull_suffix (s : State) : s.rxPull.rxq <:+ s.rxq := rxPullLoop_suffix s.rxq s rfl

/-- A complete buffer is the frame that rx_take consumes (R27, R125). -/
theorem bufferedFrame_of_complete {s : State} (h : s.complete = true) : s.bufferedFrame = s.rxbuf := by
  unfold State.complete at h
  unfold State.bufferedFrame
  split at h
  · cases h
  · rename_i len rest hbuf
    have hlen : s.rxbuf.length = len.toNat := by simpa [State.rxcount] using h
    simp only [hbuf]
    rw [hbuf] at hlen
    rw [List.take_of_length_le (by omega)]

/-! ### The transmits and the receives -/

/-- Everything the transmits' common part can do: OVERSIZE, or FAULT_UNWRITTEN with FAULT set, or one frame (R123, R141,
R163). -/
theorem transmit_cases (s : State) (limit : Nat) (header : List Byte) (len : Byte) :
    (limit < len.toNat ∧ s.transmit limit header len = s.respond .oversize 0#16) ∨
    (len.toNat ≤ limit ∧ s.txGather len.toNat = none ∧
      s.transmit limit header len = (s.raiseFault .unwritten).respond .faultUnwritten 0#16) ∨
    (len.toNat ≤ limit ∧ ∃ payload, s.txGather len.toNat = some payload ∧
      s.transmit limit header len =
        (s.emitFrame (header ++ payload)).respond .ok (zext16 (lenByte (header ++ payload)))) := by
  unfold State.transmit
  split_ifs with h
  · exact .inl ⟨h, rfl⟩
  · right
    cases hg : s.txGather len.toNat with
    | none => exact .inl ⟨by omega, rfl, rfl⟩
    | some payload => exact .inr ⟨by omega, payload, rfl, rfl⟩

/-- Everything the receives' common part can do: NOFRAME, BADFCS, or the layer's part on a good frame's body (R143, R167,
R168). -/
theorem receiveGood_cases (s : State) (layer : List Byte → State → State) :
    (s.rxPull.complete = false ∧ s.receiveGood layer = s.rxPull.respond .noFrame 0#16) ∨
    (s.rxPull.complete = true ∧ goodFrame s.rxPull.rxbuf = false ∧
      s.receiveGood layer = s.rxPull.rxTake.respond .badFcs 0#16) ∨
    (s.rxPull.complete = true ∧ goodFrame s.rxPull.rxbuf = true ∧
      s.receiveGood layer = layer (frameBody s.rxPull.rxbuf) s.rxPull.rxTake) := by
  unfold State.receiveGood
  cases hc : s.rxPull.complete with
  | false => exact .inl ⟨rfl, by simp [hc]⟩
  | true =>
    right
    have hb := bufferedFrame_of_complete hc
    cases hg : goodFrame s.rxPull.rxbuf with
    | false => exact .inl ⟨rfl, rfl, by simp [hc, hb, hg]⟩
    | true => exact .inr ⟨rfl, rfl, by simp [hc, hb, hg]⟩

/-- The acknowledgement writes CRC and TXS only, and nothing for a broadcast (R167, R172). -/
theorem acknowledge_cases (s : State) (dest src : Byte) (q : BitVec 7) :
    (dest = broadcast ∧ s.acknowledge dest src q = s) ∨
    (dest ≠ broadcast ∧ s.acknowledge dest src q = s.emitFrame (s.ackBody src q)) := by
  unfold State.acknowledge
  split_ifs with h
  · exact .inl ⟨h, rfl⟩
  · exact .inr ⟨h, rfl⟩

end Sys2Proof.Machine
end

