-- ==== Sys2Proof/Laws/PerInstr.lean ====
section
/-! SUPPORT. Per command: the word of a well-formed command is matched by the row of the opcode map that has its mnemonic. -/

namespace Sys2Proof.Laws.EncodingMatchesRow

/-- The row with the command's mnemonic matches the command's word (R73, R75). -/
def Statement (i : Instr) : Prop :=
  i.WellFormed → ∃ r ∈ opcodeTable, r.mnemonic = Sys2Proof.Machine.mnemonicOf i ∧ rowMatches (encode i) r = true

/-- How a row is exhibited: by its place in the map, and by its match. -/
theorem of_row {i : Instr} (n : Nat) (r : OpRow) (at_n : opcodeTable[n]? = some r)
    (name : r.mnemonic = Sys2Proof.Machine.mnemonicOf i) (hit : rowMatches (encode i) r = true) : Statement i :=
  fun _ => ⟨r, List.mem_of_getElem? at_n, name, hit⟩

theorem nop : Statement .nop := of_row 0 _ rfl rfl (by decide)

theorem crcInit : Statement .crcInit := of_row 1 _ rfl rfl (by decide)

theorem crcUpd (byte : Byte) : Statement (.crcUpd byte) := by
  exact of_row 2 _ rfl rfl ((rowMatches_iff _ _).2 (by simp only [encode, fields_pack]; simp [fields]))

theorem crcRdfcs : Statement .crcRdfcs := of_row 3 _ rfl rfl (by decide)

theorem crcRdraw : Statement .crcRdraw := of_row 4 _ rfl rfl (by decide)

theorem crcChk : Statement .crcChk := of_row 5 _ rfl rfl (by decide)

theorem txbWr (idx byte : Byte) : Statement (.txbWr idx byte) := by
  exact of_row 6 _ rfl rfl ((rowMatches_iff _ _).2 (by simp only [encode, fields_pack]; simp [fields]))

theorem txSend (len : Byte) : Statement (.txSend len) := by
  exact of_row 7 _ rfl rfl ((rowMatches_iff _ _).2 (by simp only [encode, fields_pack]; simp [fields]))

theorem txSendto (len dest : Byte) : Statement (.txSendto len dest) := by
  exact of_row 8 _ rfl rfl ((rowMatches_iff _ _).2 (by simp only [encode, fields_pack]; simp [fields]))

theorem txSendseq (len dest flag : Byte) : Statement (.txSendseq len dest flag) := by
  exact of_row 9 _ rfl rfl ((rowMatches_iff _ _).2 (by simp only [encode, fields_pack]; simp [fields]))

theorem rxAvail : Statement .rxAvail := of_row 10 _ rfl rfl (by decide)

theorem rxRecv (cap : Byte) : Statement (.rxRecv cap) := by
  exact of_row 11 _ rfl rfl ((rowMatches_iff _ _).2 (by simp only [encode, fields_pack]; simp [fields]))

theorem rxRecvfrom (cap : Byte) (promisc : Bool) : Statement (.rxRecvfrom cap promisc) := by
  cases promisc <;>
  exact of_row 12 _ rfl rfl ((rowMatches_iff _ _).2 (by simp only [encode, fields_pack]; simp [fields]))

theorem rxRecvrel (cap : Byte) : Statement (.rxRecvrel cap) := by
  exact of_row 13 _ rfl rfl ((rowMatches_iff _ _).2 (by simp only [encode, fields_pack]; simp [fields]))

theorem rxRecvack (dest seq : Byte) : Statement (.rxRecvack dest seq) := by
  intro wf
  have small : ∀ x : Byte, x.toNat < 128 → x &&& 128#8 = 0#8 := by decide
  have clear := small seq (by simpa [Instr.WellFormed, Instr.wellFormed] using wf)
  refine of_row 14 _ rfl rfl ((rowMatches_iff _ _).2 ?_) wf
  simp only [encode, fields_pack]
  simp [fields, clear]

theorem outRd (idx : Byte) : Statement (.outRd idx) := by
  exact of_row 15 _ rfl rfl ((rowMatches_iff _ _).2 (by simp only [encode, fields_pack]; simp [fields]))

theorem outHdr : Statement .outHdr := of_row 16 _ rfl rfl (by decide)

theorem seqNext : Statement .seqNext := of_row 17 _ rfl rfl (by decide)

theorem seqRd : Statement .seqRd := of_row 18 _ rfl rfl (by decide)

theorem lsRd (addr : Byte) : Statement (.lsRd addr) := by
  exact of_row 19 _ rfl rfl ((rowMatches_iff _ _).2 (by simp only [encode, fields_pack]; simp [fields]))

theorem cfgSetaddr (addr : Byte) : Statement (.cfgSetaddr addr) := by
  exact of_row 20 _ rfl rfl ((rowMatches_iff _ _).2 (by simp only [encode, fields_pack]; simp [fields]))

theorem cfgRdaddr : Statement .cfgRdaddr := of_row 21 _ rfl rfl (by decide)

theorem cntRdbad : Statement .cntRdbad := of_row 22 _ rfl rfl (by decide)

theorem cntRdgood : Statement .cntRdgood := of_row 23 _ rfl rfl (by decide)

theorem fltRd : Statement .fltRd := of_row 24 _ rfl rfl (by decide)

end Sys2Proof.Laws.EncodingMatchesRow
end

