-- ==== Sys2Proof/Laws/Run.lean ====
section
/-! SUPPORT. How the host's procedures end in infinite runs: host_sendToWait where the clock exceeds every bound (R207), the
receive loops where the environment appends finitely often (R212). -/

namespace Sys2Proof.Machine

/-! ### What a command leaves to the host -/

/-- `t` follows from `s` without a move of the host: task, clock, agenda and port stay, and no byte is gained (R22, R60). -/
structure SameHost (s t : State) : Prop where
  task : t.task = s.task
  clock : t.clock = s.clock
  agenda : t.agenda = s.agenda
  cmd : t.cmd = s.cmd
  pending : t.rxbuf.length + t.rxq.length ≤ s.rxbuf.length + s.rxq.length

theorem SameHost.trans {s t u : State} (h : SameHost s t) (k : SameHost t u) : SameHost s u :=
  ⟨k.task.trans h.task, k.clock.trans h.clock, k.agenda.trans h.agenda, k.cmd.trans h.cmd, k.pending.trans h.pending⟩

theorem sameHost_rxPullLoop (q : List Byte) : ∀ s : State, s.rxq = q → SameHost s (State.rxPullLoop q s) := by
  induction q with
  | nil => intro s h; exact ⟨rfl, rfl, rfl, rfl, le_rfl⟩
  | cons v q ih =>
    intro s h
    have push : SameHost s (State.rxPullLoop q ((s.rxPopTo q).rxPush v)) :=
      (SameHost.trans (t := (s.rxPopTo q).rxPush v) ⟨rfl, rfl, rfl, rfl, by simp [h]; omega⟩ (ih _ rfl))
    simp only [State.rxPullLoop]
    split_ifs
    · exact ⟨rfl, rfl, rfl, rfl, le_rfl⟩
    · exact push
    · exact ⟨rfl, rfl, rfl, rfl, by simp⟩
    · exact push

theorem sameHost_rxPull (s : State) : SameHost s s.rxPull := sameHost_rxPullLoop s.rxq s rfl

/-- A complete buffer is not empty, so taking it leaves fewer bytes (R27, R125). -/
theorem rxTake_fewer {s : State} (h : s.complete = true) :
    s.rxTake.rxbuf.length + s.rxTake.rxq.length < s.rxbuf.length + s.rxq.length := by
  have nonempty : s.rxbuf ≠ [] := fun e => by simp [complete_nil e] at h
  have : 0 < s.rxbuf.length := List.length_pos_iff.2 nonempty
  simp
  omega

theorem sameHost_rxTake {s : State} (h : s.complete = true) : SameHost s s.rxTake :=
  ⟨by simp, by simp, by simp, by simp, (rxTake_fewer h).le⟩

theorem sameHost_transmit (s : State) (limit : Nat) (header : List Byte) (len : Byte) :
    SameHost s (s.transmit limit header len) := by
  rcases transmit_cases s limit header len with ⟨_, h⟩ | ⟨_, _, h⟩ | ⟨_, p, _, h⟩ <;> rw [h] <;>
    exact ⟨by simp, by simp, by simp, by simp, by simp⟩

/-- The receives' common part: NOFRAME after the pull, or fewer bytes pending (R143, R167, R168). -/
theorem sameHost_receiveGood (s : State) (layer : List Byte → State → State)
    (hl : ∀ body u, SameHost u (layer body u)) : SameHost s (s.receiveGood layer) ∧
      ((s.receiveGood layer).status = .noFrame ∨
        (s.receiveGood layer).rxbuf.length + (s.receiveGood layer).rxq.length < s.rxbuf.length + s.rxq.length) := by
  have pull := sameHost_rxPull s
  rcases receiveGood_cases s layer with ⟨_, h⟩ | ⟨hc, _, h⟩ | ⟨hc, _, h⟩ <;> rw [h]
  · exact ⟨pull.trans ⟨by simp, by simp, by simp, by simp, by simp⟩, .inl (by simp)⟩
  · have take := rxTake_fewer hc
    have less := pull.pending
    exact ⟨(pull.trans (sameHost_rxTake hc)).trans ⟨by simp, by simp, by simp, by simp, by simp⟩,
      .inr (by simp only [State.respond_rxbuf, State.respond_rxq]; omega)⟩
  · have take := rxTake_fewer hc
    have less := pull.pending
    have last := hl (frameBody s.rxPull.rxbuf) s.rxPull.rxTake
    have lastLess := last.pending
    exact ⟨(pull.trans (sameHost_rxTake hc)).trans last, .inr (by omega)⟩

theorem sameHost_deliverAddressed (cap : Byte) (promisc : Bool) (body : List Byte) (s : State) :
    SameHost s (deliverAddressed cap promisc body s) := by
  unfold deliverAddressed
  split
  · split_ifs <;> exact ⟨by simp, by simp, by simp, by simp, by simp⟩
  · exact ⟨by simp, by simp, by simp, by simp, by simp⟩

theorem sameHost_deliverReliable (cap : Byte) (body : List Byte) (s : State) :
    SameHost s (deliverReliable cap body s) := by
  unfold deliverReliable
  split
  · rename_i dest src flag inner
    split_ifs
    · exact ⟨by simp, by simp, by simp, by simp, by simp⟩
    · unfold State.deliverNew
      rcases acknowledge_cases s dest src (seqField flag) with ⟨_, h⟩ | ⟨_, h⟩ <;> rw [h] <;> split_ifs <;>
        exact ⟨by simp, by simp, by simp, by simp, by simp⟩
    · exact ⟨by simp, by simp, by simp, by simp, by simp⟩
  · exact ⟨by simp, by simp, by simp, by simp, by simp⟩

theorem sameHost_awaitAck (dest : Byte) (q : BitVec 7) (body : List Byte) (s : State) :
    SameHost s (awaitAck dest q body s) := by
  unfold awaitAck
  split
  · split_ifs <;> exact ⟨by simp, by simp, by simp, by simp, by simp⟩
  · exact ⟨by simp, by simp, by simp, by simp, by simp⟩

/-- Every word's execution answers a next state that leaves the host where it was. -/
theorem execWord_sameHost (s : State) (w : Word) : ∃ t, s.execWord w = .next t ∧ SameHost s t := by
  unfold State.execWord
  cases decode w with
  | illegal k => exact ⟨_, rfl, rfl, rfl, rfl, rfl, le_rfl⟩
  | command i =>
    cases i with
    | txSend len => exact ⟨_, rfl, sameHost_transmit ..⟩
    | txSendto len dest => exact ⟨_, rfl, sameHost_transmit ..⟩
    | txSendseq len dest flag => exact ⟨_, rfl, sameHost_transmit ..⟩
    | txbWr idx byte =>
      refine ⟨_, rfl, ?_⟩
      split_ifs <;> exact ⟨rfl, rfl, rfl, rfl, le_rfl⟩
    | cfgSetaddr addr =>
      refine ⟨_, rfl, ?_⟩
      split_ifs <;> exact ⟨rfl, rfl, rfl, rfl, le_rfl⟩
    | outRd idx =>
      refine ⟨_, rfl, ?_⟩
      split <;> exact ⟨rfl, rfl, rfl, rfl, le_rfl⟩
    | rxAvail => exact ⟨_, rfl, (sameHost_rxPull s).trans ⟨rfl, rfl, rfl, rfl, le_rfl⟩⟩
    | rxRecv cap =>
      refine ⟨_, rfl, ?_⟩
      split_ifs with hc
      · exact ((sameHost_rxPull s).trans (sameHost_rxTake hc)).trans ⟨rfl, rfl, rfl, rfl, le_rfl⟩
      · exact (sameHost_rxPull s).trans ⟨rfl, rfl, rfl, rfl, le_rfl⟩
    | rxRecvfrom cap promisc => exact ⟨_, rfl, (sameHost_receiveGood s _ (sameHost_deliverAddressed cap promisc)).1⟩
    | rxRecvrel cap => exact ⟨_, rfl, (sameHost_receiveGood s _ (sameHost_deliverReliable cap)).1⟩
    | rxRecvack dest seq => exact ⟨_, rfl, (sameHost_receiveGood s _ (sameHost_awaitAck dest _)).1⟩
    | nop => exact ⟨_, rfl, rfl, rfl, rfl, rfl, le_rfl⟩
    | crcInit => exact ⟨_, rfl, rfl, rfl, rfl, rfl, le_rfl⟩
    | crcUpd _ => exact ⟨_, rfl, rfl, rfl, rfl, rfl, le_rfl⟩
    | crcRdfcs => exact ⟨_, rfl, rfl, rfl, rfl, rfl, le_rfl⟩
    | crcRdraw => exact ⟨_, rfl, rfl, rfl, rfl, rfl, le_rfl⟩
    | crcChk => exact ⟨_, rfl, rfl, rfl, rfl, rfl, le_rfl⟩
    | outHdr => exact ⟨_, rfl, rfl, rfl, rfl, rfl, le_rfl⟩
    | seqNext => exact ⟨_, rfl, rfl, rfl, rfl, rfl, le_rfl⟩
    | seqRd => exact ⟨_, rfl, rfl, rfl, rfl, rfl, le_rfl⟩
    | lsRd _ => exact ⟨_, rfl, rfl, rfl, rfl, rfl, le_rfl⟩
    | cfgRdaddr => exact ⟨_, rfl, rfl, rfl, rfl, rfl, le_rfl⟩
    | cntRdbad => exact ⟨_, rfl, rfl, rfl, rfl, rfl, le_rfl⟩
    | cntRdgood => exact ⟨_, rfl, rfl, rfl, rfl, rfl, le_rfl⟩
    | fltRd => exact ⟨_, rfl, rfl, rfl, rfl, rfl, le_rfl⟩

/-- A loop's receive command ends NOFRAME or leaves fewer bytes pending (R212). -/
theorem loopCommand_fewer (s : State) (what : HostReceive) (hw : ∀ cap, what ≠ .base cap) :
    ∃ t, s.execWord (encode what.command) = .next t ∧ SameHost s t ∧
      (t.status = .noFrame ∨ t.rxbuf.length + t.rxq.length < s.rxbuf.length + s.rxq.length) := by
  have from_ : ∀ (cap : Byte) (promisc : Bool), decode (encode (.rxRecvfrom cap promisc)) = .command (.rxRecvfrom cap promisc) := by
    decide +kernel
  have rel : ∀ cap : Byte, decode (encode (.rxRecvrel cap)) = .command (.rxRecvrel cap) := by decide +kernel
  cases what with
  | base cap => exact absurd rfl (hw cap)
  | addressed cap promisc report =>
    exact ⟨_, by simp only [State.execWord, HostReceive.command, from_]; rfl,
      sameHost_receiveGood s _ (sameHost_deliverAddressed cap promisc)⟩
  | reliable cap =>
    exact ⟨_, by simp only [State.execWord, HostReceive.command, rel]; rfl,
      sameHost_receiveGood s _ (sameHost_deliverReliable cap)⟩

/-! ### One step of a busy host -/

/-- How many events of the agenda come before the host's first request. -/
def movesFirst (es : List Event) : Nat := (es.takeWhile (fun e => !e.needsIdleHost)).length

/-- Requests asked for later do not come before what is there. -/
@[simp] theorem movesFirst_append (es asks : List Event) :
    movesFirst (es ++ asks.filter Event.needsIdleHost) = movesFirst es := by
  induction es with
  | nil =>
    cases h : asks.filter Event.needsIdleHost with
    | nil => rfl
    | cons e rest =>
      have : e.needsIdleHost = true := by
        have : e ∈ asks.filter Event.needsIdleHost := by simp [h]
        exact (List.mem_filter.1 this).2
      simp [movesFirst, this]
  | cons e es ih =>
    by_cases he : e.needsIdleHost = true
    · simp [movesFirst, he]
    · simpa [movesFirst, he] using ih

theorem movesFirst_cons {e : Event} {es : List Event} (h : e.needsIdleHost = false) :
    movesFirst (e :: es) = movesFirst es + 1 := by simp [movesFirst, h]

/-- A step with a presented word is what executing the word answers. -/
theorem steps_of_execWord {s t : State} {w : Word} (h : s.cmd = some w) (k : s.takeCommand.execWord w = .next t) :
    s.steps = t := by simp [State.steps, step, h, k]

/-- What a step with a presented word leaves alone. -/
theorem steps_of_cmd {s : State} {w : Word} (h : s.cmd = some w) :
    s.steps.task = s.task ∧ s.steps.clock = s.clock ∧ s.steps.agenda = s.agenda ∧ s.steps.cmd = none ∧
      s.steps.rxbuf.length + s.steps.rxq.length ≤ s.rxbuf.length + s.rxq.length := by
  obtain ⟨t, ht, k⟩ := execWord_sameHost s.takeCommand w
  rw [steps_of_execWord h ht]
  exact ⟨by simpa using k.task, by simpa using k.clock, by simpa using k.agenda, by simpa using k.cmd,
    by simpa using k.pending⟩

/-- A step without a presented word, of a host that is busy: a turn of the host when nothing comes before it, or a turn that the
agenda asks for, or a move of another agent. -/
theorem steps_of_busy {s : State} (hc : s.cmd = none) (ht : s.task ≠ .idle) :
    (movesFirst s.agenda = 0 ∧ s.steps = s.hostTurn) ∨
    (∃ rest, movesFirst rest + 1 = movesFirst s.agenda ∧ s.steps = State.hostTurn { s with agenda := rest }) ∨
    (movesFirst s.steps.agenda + 1 = movesFirst s.agenda ∧ s.steps.task = s.task ∧ s.steps.cmd = none ∧
      s.clock ≤ s.steps.clock) := by
  have hs : s.steps = s.agentsMove := by simp [State.steps, step, hc]
  rw [hs, State.agentsMove]
  split
  · rename_i ha
    exact .inl ⟨by rw [ha]; rfl, rfl⟩
  · rename_i e rest ha
    split_ifs with hi
    · exact .inl ⟨by rw [ha]; simp [movesFirst, (Bool.and_eq_true_iff.1 hi).1], rfl⟩
    · have he : e.needsIdleHost = false := by simpa [ht] using hi
      have hm : movesFirst rest + 1 = movesFirst s.agenda := by rw [ha, movesFirst_cons he]
      right
      cases e with
      | command w => simp [Event.needsIdleHost] at he
      | call c => simp [Event.needsIdleHost] at he
      | host => exact .inl ⟨rest, hm, rfl⟩
      | arrive bytes => exact .inr ⟨hm, rfl, hc, le_rfl⟩
      | consume n => exact .inr ⟨hm, rfl, hc, le_rfl⟩
      | tick ms => exact .inr ⟨hm, rfl, hc, by simp [State.happen]⟩
      | powerOn => exact .inr ⟨hm, rfl, hc, le_rfl⟩

@[simp] theorem hostLoad_clock (s : State) (what : HostSend) (p : List Byte) (n : Nat) :
    (s.hostLoad what p n).clock = s.clock := by
  unfold State.hostLoad
  split
  · rfl
  · cases what <;> rfl

@[simp] theorem hostAttempt_clock (s : State) (job : WaitJob) (k : Nat) : (s.hostAttempt job k).clock = s.clock := by
  unfold State.hostAttempt
  split_ifs <;> rfl

@[simp] theorem hostPoll_clock (s : State) (job : WaitJob) (k t0 : Nat) : (s.hostPoll job k t0).clock = s.clock := by
  unfold State.hostPoll
  split_ifs <;> rfl

@[simp] theorem hostRead_clock (s : State) (good report : Bool) (n : Nat) (bytes : List Byte) :
    (s.hostRead good report n bytes).clock = s.clock := by
  unfold State.hostRead
  split_ifs <;> rfl

@[simp] theorem hostStart_clock (s : State) (c : HostCall) : (s.hostStart c).clock = s.clock := by
  cases c <;> simp only [State.hostStart]
  all_goals first | rfl | (split_ifs <;> simp)

/-- No turn of the host moves the clock. -/
@[simp] theorem hostTurn_clock (s : State) : s.hostTurn.clock = s.clock := by
  unfold State.hostTurn State.hostReceived
  split <;> (try split_ifs) <;> (try split) <;> (try split) <;> simp

@[simp] theorem hostLoad_agenda (s : State) (what : HostSend) (p : List Byte) (n : Nat) :
    (s.hostLoad what p n).agenda = s.agenda := by
  unfold State.hostLoad
  split
  · rfl
  · cases what <;> rfl

@[simp] theorem hostAttempt_agenda (s : State) (job : WaitJob) (k : Nat) : (s.hostAttempt job k).agenda = s.agenda := by
  unfold State.hostAttempt
  split_ifs <;> rfl

@[simp] theorem hostPoll_agenda (s : State) (job : WaitJob) (k t0 : Nat) : (s.hostPoll job k t0).agenda = s.agenda := by
  unfold State.hostPoll
  split_ifs <;> rfl

@[simp] theorem hostRead_agenda (s : State) (good report : Bool) (n : Nat) (bytes : List Byte) :
    (s.hostRead good report n bytes).agenda = s.agenda := by
  unfold State.hostRead
  split_ifs <;> rfl

/-- No turn of the host touches the agenda. -/
@[simp] theorem hostTurn_agenda (s : State) : s.hostTurn.agenda = s.agenda := by
  unfold State.hostTurn State.hostReceived
  split <;> (try split_ifs) <;> (try split) <;> (try split) <;> simp

/-- The clock never goes back (R207). -/
theorem clock_le_steps (s : State) : s.clock ≤ s.steps.clock := by
  cases hc : s.cmd with
  | some w => exact (steps_of_cmd hc).2.1.ge
  | none =>
    by_cases ht : s.task = .idle
    · have hs : s.steps = s.agentsMove := by simp [State.steps, step, hc]
      rw [hs, State.agentsMove]
      split
      · simp
      · rename_i e rest ha
        simp only [ht, bne_self_eq_false, Bool.and_false, Bool.false_eq_true, ↓reduceIte]
        cases e with
        | call c => simp [State.happen]
        | host => simp [State.happen]
        | tick ms => simp [State.happen]
        | _ => exact le_rfl
    · rcases steps_of_busy hc ht with ⟨_, h⟩ | ⟨rest, _, h⟩ | ⟨_, _, _, h⟩
      · rw [h]; simp
      · rw [h]; simp
      · exact h

/-! ### Runs -/

theorem runState_succ (env : Nat → Surroundings) (s : State) (n : Nat) :
    runState env s (n + 1) = ((runState env s n).surround (env n)).steps := rfl

theorem clock_le_runState (env : Nat → Surroundings) (s : State) {n m : Nat} (h : n ≤ m) :
    (runState env s n).clock ≤ (runState env s m).clock := by
  induction m, h using Nat.le_induction with
  | base => exact le_rfl
  | succ m _ ih =>
    refine ih.trans ?_
    have := clock_le_steps ((runState env s m).surround (env m))
    simp only [State.surround_clock] at this
    simp only [runState]
    omega

/-- A busy host takes its next turn: the moves that come first are finitely many, and so is a command in progress. -/
theorem turn_comes (env : Nat → Surroundings) (s : State) (n : Nat) (task : HostTask) (busy : task ≠ .idle)
    (h : (runState env s n).task = task) : ∃ m u, n ≤ m ∧ runState env s (m + 1) = State.hostTurn u ∧ u.task = task ∧
      (runState env s n).clock ≤ u.clock := by
  generalize hk : 2 * movesFirst (runState env s n).agenda + (if (runState env s n).cmd = none then 0 else 1) = k
  induction k using Nat.strong_induction_on generalizing n with
  | _ k ih =>
    let v := (runState env s n).surround (env n)
    have hv : v = (runState env s n).surround (env n) := rfl
    have hrun : runState env s (n + 1) = v.steps := rfl
    have hvt : v.task = task := by simp [hv, h]
    have hva : movesFirst v.agenda = movesFirst (runState env s n).agenda := by simp [hv]
    have hclock : (runState env s n).clock ≤ v.clock := by simp [hv]
    have hclock' := clock_le_runState env s (Nat.le_succ n)
    cases hc : (runState env s n).cmd with
    | some w =>
      obtain ⟨t1, t2, t3, t4, _⟩ := steps_of_cmd (s := v) (w := w) (by simp [hv, hc])
      have less : 2 * movesFirst (runState env s (n + 1)).agenda +
          (if (runState env s (n + 1)).cmd = none then 0 else 1) < k := by
        rw [hrun, t3, t4, hva]; simp [hc] at hk ⊢; omega
      obtain ⟨m, u, h1, h2, h3, h4⟩ := ih _ less (n + 1) (by rw [hrun, t1, hvt]) rfl
      exact ⟨m, u, by omega, h2, h3, hclock'.trans h4⟩
    | none =>
      rcases steps_of_busy (s := v) (by simp [hv, hc]) (by rw [hvt]; exact busy) with
        ⟨_, t⟩ | ⟨rest, _, t⟩ | ⟨t1, t2, t3, t4⟩
      · exact ⟨n, _, le_rfl, hrun.trans t, hvt, hclock⟩
      · exact ⟨n, _, le_rfl, hrun.trans t, hvt, hclock⟩
      · have less : 2 * movesFirst (runState env s (n + 1)).agenda +
            (if (runState env s (n + 1)).cmd = none then 0 else 1) < k := by
          rw [hrun, t3]; simp [hc] at hk ⊢; omega
        obtain ⟨m, u, h1, h2, h3, h4⟩ := ih _ less (n + 1) (by rw [hrun, t2, hvt]) rfl
        exact ⟨m, u, by omega, h2, h3, hclock'.trans h4⟩

/-! ### host_sendToWait ends -/

/-- A poll window closes, by an acknowledgement or by the clock (R206, R211). -/
theorem window_closes (env : Nat → Surroundings) (s : State) (fair : ClockExceedsEveryBound env s) (job : WaitJob)
    (k t0 n : Nat)
    (h : (runState env s n).task = .transmitted job k t0 ∨ (runState env s n).task = .polled job k t0) :
    ∃ m, (runState env s m).task = .idle ∨ (runState env s m).task = .attempt job (k + 1) := by
  obtain ⟨late, hlate⟩ := fair (t0 + job.timeoutMs)
  generalize hd : late - n = d
  induction d using Nat.strong_induction_on generalizing n with
  | _ d ih =>
    obtain ⟨m, u, h1, h2, h3, h4⟩ := turn_comes env s n _ (by rcases h with e | e <;> simp [e]) rfl
    have poll : (State.hostPoll u job k t0).task = .attempt job (k + 1) ∨
        (u.clock - t0 < job.timeoutMs ∧ (State.hostPoll u job k t0).task = .polled job k t0) := by
      unfold State.hostPoll
      split_ifs with hw
      · exact .inr ⟨hw, rfl⟩
      · exact .inl rfl
    have turn : u.hostTurn.task = .idle ∨ u.hostTurn.task = .attempt job (k + 1) ∨
        (u.clock - t0 < job.timeoutMs ∧ u.hostTurn.task = .polled job k t0) := by
      rcases h with e | e <;> rw [e] at h3 <;> simp only [State.hostTurn, h3] <;> split_ifs
      · exact .inl rfl
      · exact .inr poll
      · exact .inl rfl
      · exact .inr poll
    rcases turn with t | t | ⟨hw, t⟩
    · exact ⟨m + 1, .inl (by rw [h2, t])⟩
    · exact ⟨m + 1, .inr (by rw [h2, t])⟩
    · have early : n < late := by
        by_contra hn
        have := clock_le_runState env s (Nat.le_of_not_lt hn)
        omega
      exact ih _ (by omega) (m + 1) (.inr (by rw [h2, t])) rfl

/-- The attempts end (R206, R211). -/
theorem attempts_end (env : Nat → Surroundings) (s : State) (fair : ClockExceedsEveryBound env s) (job : WaitJob)
    (k n : Nat) (h : (runState env s n).task = .attempt job k) : ProcedureEnds env s := by
  generalize hd : job.retries + 1 - k = d
  induction d using Nat.strong_induction_on generalizing k n with
  | _ d ih =>
    obtain ⟨m, u, _, h2, h3, _⟩ := turn_comes env s n _ (by simp) h
    simp only [State.hostTurn, h3, State.hostAttempt] at h2
    split_ifs at h2 with hk
    · obtain ⟨m', h' | h'⟩ := window_closes env s fair job k u.clock (m + 1) (.inl (by rw [h2]; rfl))
      · exact ⟨m', h'⟩
      · exact ih _ (by omega) (k + 1) m' h' rfl
    · exact ⟨m + 1, by rw [h2]; rfl⟩

/-- TXB.LOAD of a host_sendToWait call leads to its attempts (R83, R206). -/
theorem load_leads_on (env : Nat → Surroundings) (s : State) (fair : ClockExceedsEveryBound env s) (job : WaitJob)
    (p : List Byte) (i n : Nat)
    (u : State) (h : runState env s n = State.hostLoad u (.reliable job) p i) : ProcedureEnds env s := by
  generalize hd : p.length - i = d
  induction d using Nat.strong_induction_on generalizing i n u with
  | _ d ih =>
    unfold State.hostLoad at h
    split at h
    · rename_i b hb
      have hi : i < p.length := (List.getElem?_eq_some_iff.1 hb).1
      obtain ⟨m, v, _, h2, h3, _⟩ := turn_comes env s n (.load (.reliable job) p (i + 1)) (by simp) (by rw [h]; rfl)
      simp only [State.hostTurn, h3] at h2
      exact ih _ (by omega) (i + 1) (m + 1) v h2 rfl
    · exact attempts_end env s fair job 0 n (by rw [h]; rfl)

/-- Every call of host_sendToWait ends, from wherever it stands, if the clock exceeds every bound (R206, R207). -/
theorem sendToWait_ends (env : Nat → Surroundings) (s : State) (fair : ClockExceedsEveryBound env s)
    (h : s.task.isSendToWait = true) : ProcedureEnds env s := by
  have h0 : runState env s 0 = s := rfl
  unfold HostTask.isSendToWait at h
  split at h
  · rename_i job ht
    obtain ⟨m, u, _, h2, h3, _⟩ := turn_comes env s 0 s.task (by simp [ht]) rfl
    simp only [State.hostTurn, h3.trans ht] at h2
    exact load_leads_on env s fair _ _ 0 (m + 1) u h2
  · rename_i job p i ht
    obtain ⟨m, u, _, h2, h3, _⟩ := turn_comes env s 0 s.task (by simp [ht]) rfl
    simp only [State.hostTurn, h3.trans ht] at h2
    exact load_leads_on env s fair _ _ i (m + 1) u h2
  · rename_i job k ht
    exact attempts_end env s fair job k 0 (by rw [h0, ht])
  · rename_i job k t0 ht
    obtain ⟨m, h' | h'⟩ := window_closes env s fair job k t0 0 (.inl (by rw [h0, ht]))
    · exact ⟨m, h'⟩
    · exact attempts_end env s fair job (k + 1) m h'
  · rename_i job k t0 ht
    obtain ⟨m, h' | h'⟩ := window_closes env s fair job k t0 0 (.inr (by rw [h0, ht]))
    · exact ⟨m, h'⟩
    · exact attempts_end env s fair job (k + 1) m h'
  all_goals cases h

/-! ### The receive loops end -/

/-- The OUT.RD loop and OUT.HDR end by themselves (R203, R204). -/
theorem read_ends (env : Nat → Surroundings) (s : State) (good report : Bool) (total : Nat) (bytes : List Byte) (n : Nat)
    (u : State) (h : runState env s n = State.hostRead u good report total bytes) : ProcedureEnds env s := by
  generalize hd : total - bytes.length = d
  induction d using Nat.strong_induction_on generalizing bytes n u with
  | _ d ih =>
    unfold State.hostRead at h
    split_ifs at h with hl
    · obtain ⟨m, v, _, h2, h3, _⟩ := turn_comes env s n (.reading good report total bytes) (by simp) (by rw [h]; rfl)
      simp only [State.hostTurn, h3] at h2
      exact ih _ (by simp; omega) _ (m + 1) v h2 rfl
    · obtain ⟨m, v, _, h2, h3, _⟩ := turn_comes env s n (.header good bytes) (by simp) (by rw [h]; rfl)
      simp only [State.hostTurn, h3] at h2
      exact ⟨m + 1, by rw [h2]; rfl⟩
    · exact ⟨n, by rw [h]; rfl⟩

/-- A turn on the response of a receive command: the call ends, or it issues its command once more, and then the response was
neither NOFRAME nor OK (R203, R204, R208). -/
theorem received_ends_or_repeats (env : Nat → Surroundings) (s : State) (what : HostReceive) (n : Nat) (u : State)
    (h : runState env s n = State.hostReceived u what) : ProcedureEnds env s ∨
      (u.status ≠ .noFrame ∧ (∀ cap, what ≠ .base cap) ∧ runState env s n = u.issue what.command (.receiving what)) := by
  unfold State.hostReceived at h
  split at h
  · exact .inl (read_ends env s _ _ _ _ n u h)
  · exact .inl ⟨n, by rw [h]; rfl⟩
  · rename_i hn
    split at h
    · exact .inl (read_ends env s _ _ _ _ n u h)
    · exact .inr ⟨hn, by simp, h⟩
    · exact .inr ⟨hn, by simp, h⟩

/-- The loop of a receive procedure, with nothing more to arrive: each pass that does not return leaves fewer bytes pending
(R212). -/
theorem receive_loop_ends (env : Nat → Surroundings) (s : State) (what : HostReceive) (n : Nat)
    (silent : ∀ m, n ≤ m → (env m).arrives = []) (turns : movesFirst (runState env s n).agenda = 0)
    (free : (runState env s n).cmd = none) (h : (runState env s n).task = .receiving what) : ProcedureEnds env s := by
  generalize hd : (runState env s n).rxbuf.length + (runState env s n).rxq.length = d
  have issued : ∀ n, movesFirst (runState env s n).agenda = 0 → (runState env s n).cmd = none →
      (runState env s n).task = .receiving what → (env n).arrives = [] → ProcedureEnds env s ∨
      ((runState env s n).status ≠ .noFrame ∧ (∀ cap, what ≠ .base cap) ∧
        runState env s (n + 1) = ((runState env s n).surround (env n)).issue what.command (.receiving what)) := by
    intro n turns free h _
    have task : ((runState env s n).surround (env n)).task = .receiving what := by simp [h]
    rcases steps_of_busy (s := (runState env s n).surround (env n)) (by simp [free]) (by simp [h]) with
      ⟨_, r⟩ | ⟨rest, t, _⟩ | ⟨t, _⟩
    · have turn : runState env s (n + 1) = State.hostReceived ((runState env s n).surround (env n)) what := by
        rw [runState_succ, r, State.hostTurn, task]
      simpa using received_ends_or_repeats env s what (n + 1) _ turn
    · simp [turns] at t
    · simp [turns] at t
  induction d using Nat.strong_induction_on generalizing n with
  | _ d ih =>
    rcases issued n turns free h (silent n le_rfl) with e | ⟨_, hw, i1⟩
    · exact e
    · have port : (runState env s (n + 1)).cmd = some (encode what.command) := by rw [i1]; rfl
      have task1 : (runState env s (n + 1)).task = .receiving what := by rw [i1]; rfl
      have turns1 : movesFirst (runState env s (n + 1)).agenda = 0 := by rw [i1]; simpa using turns
      have bytes1 : (runState env s (n + 1)).rxbuf.length + (runState env s (n + 1)).rxq.length = d := by
        rw [i1]; simpa [silent n le_rfl] using hd
      have quiet1 := silent (n + 1) (by omega)
      let v := (runState env s (n + 1)).surround (env (n + 1))
      obtain ⟨t, ht, same, fewer⟩ := loopCommand_fewer v.takeCommand what hw
      have run2 : runState env s (n + 2) = t := by
        rw [runState_succ]
        exact steps_of_execWord (by simp [port]) ht
      have turns2 : movesFirst (runState env s (n + 2)).agenda = 0 := by
        rw [run2, same.agenda]; simpa [v] using turns1
      have free2 : (runState env s (n + 2)).cmd = none := by rw [run2, same.cmd]; rfl
      have task2 : (runState env s (n + 2)).task = .receiving what := by rw [run2, same.task]; simpa [v] using task1
      have bytesV : v.takeCommand.rxbuf.length + v.takeCommand.rxq.length = d := by simpa [v, quiet1] using bytes1
      rcases fewer with nf | fewer
      · rcases issued (n + 2) turns2 free2 task2 (silent _ (by omega)) with e | ⟨hn, _⟩
        · exact e
        · exact absurd (by rw [run2]; exact nf) hn
      · exact ih _ (by rw [bytesV] at fewer; rw [run2]; exact fewer) (n + 2) (fun m hm => silent m (by omega)) turns2 free2
          task2 rfl

theorem receive_turn (s : State) (h : s.task.isReceive = true) :
    s.hostTurn.task = .idle ∨ s.hostTurn.task.isReceive = true := by
  have read : ∀ (u : State) (g r : Bool) (n : Nat) (bs : List Byte),
      (u.hostRead g r n bs).task = .idle ∨ (u.hostRead g r n bs).task.isReceive = true := by
    intro u g r n bs; unfold State.hostRead; split_ifs
    · exact .inr rfl
    · exact .inr rfl
    · exact .inl rfl
  cases ht : s.task with
  | receiving what =>
    simp only [State.hostTurn, ht, State.hostReceived]
    split
    · exact read ..
    · exact .inl rfl
    · split
      · exact read ..
      · exact .inr rfl
      · exact .inr rfl
  | reading g r n bs => simp only [State.hostTurn, ht]; exact read ..
  | header g bs => simp only [State.hostTurn, ht]; exact .inl rfl
  | _ => rw [ht] at h; cases h

/-- A receive call comes to the point where the next step is a turn of the host that no move precedes, or ends before
(R204). -/
theorem receive_settles (env : Nat → Surroundings) (s : State) (n : Nat) (h : (runState env s n).task.isReceive = true) :
    ProcedureEnds env s ∨ ∃ m, n ≤ m ∧ movesFirst (runState env s m).agenda = 0 ∧ (runState env s m).cmd = none ∧
      (runState env s m).task.isReceive = true := by
  generalize hk : 2 * movesFirst (runState env s n).agenda + (if (runState env s n).cmd = none then 0 else 1) = k
  induction k using Nat.strong_induction_on generalizing n with
  | _ k ih =>
    let v := (runState env s n).surround (env n)
    have hrun : runState env s (n + 1) = v.steps := rfl
    have hvt : v.task.isReceive = true := by simpa [v] using h
    have hva : movesFirst v.agenda = movesFirst (runState env s n).agenda := by simp [v]
    have busy : v.task ≠ .idle := by intro e; rw [e] at hvt; cases hvt
    have onward : 2 * movesFirst v.steps.agenda + (if v.steps.cmd = none then 0 else 1) < k →
        v.steps.task = .idle ∨ v.steps.task.isReceive = true → ProcedureEnds env s ∨ ∃ m, n ≤ m ∧
          movesFirst (runState env s m).agenda = 0 ∧ (runState env s m).cmd = none ∧
          (runState env s m).task.isReceive = true := by
      rintro less (t | t)
      · exact .inl ⟨n + 1, by rw [hrun, t]⟩
      · rcases ih _ less (n + 1) (by rw [hrun, t]) rfl with e | ⟨m, hm, e⟩
        · exact .inl e
        · exact .inr ⟨m, by omega, e⟩
    cases hc : (runState env s n).cmd with
    | some w =>
      obtain ⟨t1, _, t3, t4, _⟩ := steps_of_cmd (s := v) (w := w) (by simp [v, hc])
      exact onward (by rw [t3, t4, hva]; simp [hc] at hk ⊢; omega) (.inr (by rw [t1]; exact hvt))
    | none =>
      simp only [hc, ↓reduceIte, Nat.add_zero] at hk
      rcases steps_of_busy (s := v) (by simp [v, hc]) busy with ⟨t0, _⟩ | ⟨rest, t0, t⟩ | ⟨t0, t1, t3, _⟩
      · exact .inr ⟨n, le_rfl, by rw [← hva, t0], hc, h⟩
      · refine onward ?_ ?_
        · rw [t, hostTurn_agenda]
          have : movesFirst (State.agenda { v with agenda := rest }) + 1 = movesFirst v.agenda := t0
          split_ifs <;> omega
        · rw [t]; exact receive_turn { v with agenda := rest } hvt
      · exact onward (by rw [t3]; simp only [↓reduceIte, Nat.add_zero]; omega) (.inr (by rw [t1]; exact hvt))

/-- Every call of a receive procedure ends, from wherever it stands, if the environment appends finitely often (R204, R208,
R212). -/
theorem receive_ends (env : Nat → Surroundings) (s : State) (finite : AppendsFinitelyOften env)
    (h : s.task.isReceive = true) : ProcedureEnds env s := by
  obtain ⟨late, silent⟩ := finite
  have stays : ∀ n, ProcedureEnds env s ∨ (runState env s n).task.isReceive = true := by
    intro n
    induction n with
    | zero => exact .inr h
    | succ n ih =>
      rcases ih with e | e
      · exact .inl e
      · have e' : ((runState env s n).surround (env n)).task.isReceive = true := by simpa using e
        have busy : ((runState env s n).surround (env n)).task ≠ .idle := by intro k; rw [k] at e'; cases e'
        have next : (runState env s (n + 1)).task = .idle ∨ (runState env s (n + 1)).task.isReceive = true := by
          rw [runState_succ]
          cases hc : ((runState env s n).surround (env n)).cmd with
          | some w => exact .inr (by rw [(steps_of_cmd hc).1]; exact e')
          | none =>
            rcases steps_of_busy hc busy with ⟨_, t⟩ | ⟨rest, _, t⟩ | ⟨_, t, _⟩
            · rw [t]; exact receive_turn _ e'
            · rw [t]; exact receive_turn _ e'
            · exact .inr (by rw [t]; exact e')
        exact next.imp_left fun t => ⟨n + 1, t⟩
  rcases stays late with e | e
  · exact e
  rcases receive_settles env s late e with e | ⟨m, hm, moves, free, e⟩
  · exact e
  cases ht : (runState env s m).task with
  | receiving what => exact receive_loop_ends env s what m (fun j hj => silent j (by omega)) moves free ht
  | reading g r total bytes =>
    obtain ⟨j, u, _, h2, h3, _⟩ := turn_comes env s m _ (by simp) ht
    simp only [State.hostTurn, h3] at h2
    exact read_ends env s g r total _ (j + 1) u h2
  | header g bytes =>
    obtain ⟨j, u, _, h2, h3, _⟩ := turn_comes env s m _ (by simp) ht
    simp only [State.hostTurn, h3] at h2
    exact ⟨j + 1, by rw [h2]; rfl⟩
  | _ => rw [ht] at e; cases e

end Sys2Proof.Machine
end

