-- ==== Sys2Proof/Tests/Slice0.lean ====
section
/-! SUPPORT. Tests of the model, and for every statement with hypotheses a state that meets them. Expected values are the
spec's own: words from 30_encoding.md R73 and R82, results from the vectors of 95_test_vectors.md, cited by their ids. -/

namespace Sys2Proof.Tests

-- Each test is checked before the next one starts, so that a machine with little memory holds one evaluation at a time.
set_option Elab.async false

open Sys2Proof.Machine

/-! ### Small states -/

/-- A node with the given LOCAL and RXQ, at reset otherwise. -/
def node (a : Byte) (pending : List Byte) : State := { State.reset with localAddr := a, rxq := pending }

/-- TXBUF with its first `n` cells holding `b`. -/
def filled (n : Nat) (b : Byte) : Memory := (List.range n).map fun i => (i, b)

/-- A node with the given LOCAL and TXBUF, at reset otherwise. -/
def sender (a : Byte) (m : Memory) : State := { State.reset with localAddr := a, txbuf := m }

/-- "test" with its terminator, in cells 0 to 4. -/
def testCells : Memory := [(0, 0x74#8), (1, 0x65#8), (2, 0x73#8), (3, 0x74#8), (4, 0x00#8)]

/-- The base-layer frame around 41. -/
def frame41 : List Byte := [0x04#8, 0x41#8, 0xAA#8, 0x3B#8]

/-- The same with a wrong FCS_HI. -/
def badFrame41 : List Byte := [0x04#8, 0x41#8, 0xAA#8, 0x3C#8]

/-- The addressed frame 68 69 from 11 to 12. -/
def frameHi : List Byte := [0x07#8, 0x0C#8, 0x0B#8, 0x68#8, 0x69#8, 0x6B#8, 0x14#8]

/-- The reliable data frame "test" from 11 to 12, sequence number 1. -/
def frameTest : List Byte :=
  [0x0B#8, 0x0C#8, 0x0B#8, 0x01#8, 0x74#8, 0x65#8, 0x73#8, 0x74#8, 0x00#8, 0xA9#8, 0x66#8]

/-- Its acknowledgement, from 12 to 11. -/
def ackTest : List Byte := [0x06#8, 0x0B#8, 0x0C#8, 0x81#8, 0xC3#8, 0xA2#8]

/-- LASTSEEN with the entry of address 11 at `q` and every other entry 0. -/
def seen11 (q : BitVec 7) : Vector (BitVec 7) 256 := State.reset.lastseen.set 11 q

/-- Two states agree in every field; LASTSEEN is compared as a list, which the kernel evaluates quickly. -/
def agree (u t : State) : Bool :=
  u.params == t.params && u.crc == t.crc && u.rxbuf == t.rxbuf && u.badcnt == t.badcnt && u.goodcnt == t.goodcnt &&
  u.txbuf == t.txbuf && u.status == t.status && u.data == t.data && u.outbuf == t.outbuf && u.outfrom == t.outfrom &&
  u.outto == t.outto && u.localAddr == t.localAddr && u.seq == t.seq && u.lastseen.toList == t.lastseen.toList &&
  u.faultFlag == t.faultFlag && u.rxq == t.rxq && u.txs == t.txs && u.cmd == t.cmd && u.task == t.task &&
  u.result == t.result && u.clock == t.clock && u.agenda == t.agenda

/-- Whether an outcome is the given next state, field by field. -/
def gives (o : Host.Outcome State Fault Refusal) (t : State) : Bool :=
  match o with
  | .next u => agree u t
  | .fault _ | .refused _ => false

/-- Whether an outcome is a next state with the given property. -/
def leaves (o : Host.Outcome State Fault Refusal) (p : State → Bool) : Bool :=
  match o with
  | .next u => p u
  | .fault _ | .refused _ => false

/-! ### Decoding: a word of each row, from the fields of R73 -/

theorem test_decode_group0_and_1 :
    decode 0x00000000#32 = .command .nop ∧ decode 0x10000000#32 = .command .crcInit ∧
    decode 0x11310000#32 = .command (.crcUpd 0x31#8) ∧ decode 0x12000000#32 = .command .crcRdfcs ∧
    decode 0x13000000#32 = .command .crcRdraw ∧ decode 0x14000000#32 = .command .crcChk := by decide

theorem test_decode_group2 :
    decode 0x20024100#32 = .command (.txbWr 2#8 0x41#8) ∧ decode 0x213D0000#32 = .command (.txSend 61#8) ∧
    decode 0x22020C00#32 = .command (.txSendto 2#8 12#8) ∧
    decode 0x23050C01#32 = .command (.txSendseq 5#8 12#8 1#8) := by decide

theorem test_decode_group3 :
    decode 0x30000000#32 = .command .rxAvail ∧ decode 0x31100000#32 = .command (.rxRecv 16#8) ∧
    decode 0x32100000#32 = .command (.rxRecvfrom 16#8 false) ∧ decode 0x32100100#32 = .command (.rxRecvfrom 16#8 true) ∧
    decode 0x33100000#32 = .command (.rxRecvrel 16#8) ∧ decode 0x34000C01#32 = .command (.rxRecvack 12#8 1#8) ∧
    decode 0x35010000#32 = .command (.outRd 1#8) ∧ decode 0x36000000#32 = .command .outHdr := by decide

theorem test_decode_group4 :
    decode 0x40000000#32 = .command .seqNext ∧ decode 0x41000000#32 = .command .seqRd ∧
    decode 0x420B0000#32 = .command (.lsRd 11#8) ∧ decode 0x43FE0000#32 = .command (.cfgSetaddr 254#8) ∧
    decode 0x44000000#32 = .command .cfgRdaddr ∧ decode 0x45000000#32 = .command .cntRdbad ∧
    decode 0x46000000#32 = .command .cntRdgood ∧ decode 0x47000000#32 = .command .fltRd := by decide

/-- V-DEC-1 to V-DEC-12, and words of the unassigned groups. -/
theorem test_decode_illegal :
    [0x00000001#32, 0x00010000#32, 0x10000001#32, 0x11000001#32, 0x12000100#32, 0x20000001#32, 0x21000100#32,
      0x32100200#32, 0x34000C81#32, 0x340C0C01#32, 0x36000001#32].map decode
      = List.replicate 11 (.illegal .reservedBitSet) ∧
    [0x15000000#32, 0x01000000#32, 0x24000000#32, 0x37000000#32, 0x48000000#32, 0x50000000#32, 0xFFFFFFFF#32].map decode
      = List.replicate 7 (.illegal .unassignedOpcode) := by decide +kernel

theorem test_decode_table_word :
    decodeTableWord 32 0x23050C01 = some (.txSendseq 5#8 12#8 1#8) ∧ decodeTableWord 32 0x48000000 = none ∧
    decodeTableWord 40 0 = none := by decide

/-- The one check of well-formedness refuses its ill-formed term and no other operand value. The well-formed terms meet
DecodeInvertsEncode's hypothesis. -/
theorem test_well_formed_smoke :
    ¬ (Instr.rxRecvack 12#8 128#8).WellFormed ∧ ¬ (Instr.rxRecvack 0#8 255#8).WellFormed ∧
    (Instr.rxRecvack 255#8 127#8).WellFormed ∧ (Instr.txSendseq 255#8 255#8 255#8).WellFormed := by decide

/-! ### Reset and steps -/

theorem test_reset_inv : State.reset.Inv where
  params_legal := by decide
  rxcount_le := by decide
  rx_window := by intro len rest h; cases h
  outlen_le := by decide
  local_ne := by decide
  txbuf_wf := by decide
  txbuf_range := by intro c h; cases h
  badcnt_lt := by decide
  goodcnt_lt := by decide

/-- A legal node with a partial frame, a full OUTBUF and the smallest parameters keeps the invariant too. -/
theorem test_small_node_inv : State.Inv { State.fresh { maxFrameLen := 6, cntW := 1 } with
    rxbuf := [6#8, 1#8, 2#8, 3#8, 4#8, 5#8], outbuf := [1#8, 2#8, 3#8], txbuf := [(0, 9#8), (2, 8#8)],
    badcnt := 1#16, localAddr := 254#8 } where
  params_legal := by decide
  rxcount_le := by decide
  rx_window := by intro len rest h; cases h; decide
  outlen_le := by decide
  local_ne := by decide
  txbuf_wf := by decide
  txbuf_range := by decide
  badcnt_lt := by decide
  goodcnt_lt := by decide

/-- The presented word runs (R82's example), a word with a reserved bit answers ILLEGAL, and without a word nothing happens. -/
theorem test_step_runs_and_waits :
    gives (step (State.reset.withFetchWord 32 0x11310000))
      { State.reset with crc := 0x2F8D#16, data := 0x2F8D#16 } ∧
    gives (step ((node 12#8 frame41).withFetchWord 32 0x34000C81)) { node 12#8 frame41 with status := .illegal } ∧
    gives (step State.reset) State.reset := by decide +kernel

/-- A state and word for EncodeInvertsDecode, StepRunsTheDecodedCommand and IllegalWordOnlyResponds. -/
theorem test_meets_presented_word :
    (State.reset.withFetchWord 32 0x11310000).cmd = some 0x11310000#32 ∧
    decode 0x11310000#32 = .command (.crcUpd 0x31#8) ∧
    (State.reset.withFetchWord 32 1).cmd = some 1#32 ∧ decode 1#32 = .illegal .reservedBitSet := by decide

/-! ### CRC unit -/

/-- V-CRC-1 to V-CRC-6. -/
theorem test_crc_upd :
    crcUpdate 0xFFFF#16 0x00#8 = 0x0F87#16 ∧ crcUpdate 0x0000#16 0x01#8 = 0x1189#16 ∧
    crcUpdate 0x1234#16 0x56#8 = 0x4006#16 ∧ crcUpdate 0xFFFF#16 0xFF#8 = 0x00FF#16 ∧
    crcUpdate 0x0000#16 0x00#8 = 0x0000#16 ∧
    gives (exec (.crcUpd 0x31#8) State.reset) { State.reset with crc := 0x2F8D#16, data := 0x2F8D#16 } :=
  by decide +kernel

/-- V-CRC-7, V-CRC-8, V-CRC-10, V-CRC-11, V-CRC-12. -/
theorem test_crc_init_and_reads :
    gives (exec .crcInit { State.reset with crc := 0x1234#16 }) State.reset ∧
    gives (exec .crcChk State.reset) State.reset ∧
    gives (exec .crcRdfcs { State.reset with crc := 0x6F91#16 }) { State.reset with crc := 0x6F91#16, data := 0x906E#16 } ∧
    gives (exec .crcChk { State.reset with crc := 0xF0B8#16 }) { State.reset with crc := 0xF0B8#16, data := 1#16 } ∧
    gives (exec .crcRdraw { State.reset with crc := 0xF0B8#16 })
      { State.reset with crc := 0xF0B8#16, data := 0xF0B8#16 } ∧
    gives (exec .crcChk { State.reset with crc := 0x8407#16 }) { State.reset with crc := 0x8407#16 } :=
  by decide +kernel

/-- The check value of program P1: "123456789" leaves 6F91, and its FCS then leaves the good residue. -/
theorem test_crc_check_value :
    crcOver [0x31#8, 0x32#8, 0x33#8, 0x34#8, 0x35#8, 0x36#8, 0x37#8, 0x38#8, 0x39#8] = 0x6F91#16 ∧
    fcsBytes 0x6F91#16 = [0x6E#8, 0x90#8] ∧ crcOverFrom 0x6F91#16 [0x6E#8, 0x90#8] = 0xF0B8#16 := by decide +kernel

/-! ### Transmit -/

/-- V-FR-8, V-FR-9, V-FR-10: the last cell, the first index beyond it, the second write to a cell. -/
theorem test_txb_wr :
    gives (exec (.txbWr 60#8 0x99#8) State.reset) { State.reset with txbuf := [(60, 0x99#8)] } ∧
    gives (exec (.txbWr 61#8 0x99#8) State.reset) { State.reset with status := .range } ∧
    gives (exec (.txbWr 0#8 0x22#8) (sender 0#8 [(0, 0x11#8)])) (sender 0#8 [(0, 0x22#8)]) ∧
    gives (exec (.txbWr 1#8 7#8) (sender 0#8 [(0, 1#8), (2, 3#8)])) (sender 0#8 [(0, 1#8), (1, 7#8), (2, 3#8)]) :=
  by decide +kernel

/-- V-FR-1, V-FR-4, V-FR-6, V-FR-7. -/
theorem test_tx_send :
    gives (exec (.txSend 1#8) (sender 0#8 [(0, 0x41#8)])) { sender 0#8 [(0, 0x41#8)] with
      crc := 0xC455#16, txs := frame41, data := 4#16 } ∧
    gives (exec (.txSend 0#8) State.reset) { State.reset with
      crc := 0x3D1C#16, txs := [0x03#8, 0xE3#8, 0xC2#8], data := 3#16 } ∧
    gives (exec (.txSend 62#8) State.reset) { State.reset with status := .oversize } ∧
    gives (exec (.txSend 2#8) (sender 0#8 [(0, 0x41#8)])) { sender 0#8 [(0, 0x41#8)] with
      faultFlag := true, status := .faultUnwritten } := by decide +kernel

/-- V-FR-3: the longest payload, 61 bytes. -/
theorem test_tx_send_longest : leaves (exec (.txSend 61#8) (sender 0#8 (filled 61 0#8)))
    (fun t => t.crc == 0xC67C#16 && t.txs == 0x40#8 :: List.replicate 61 0#8 ++ [0x83#8, 0x39#8] && t.data == 0x40#16) :=
  by decide +kernel

/-- V-AD-1, V-AD-2, V-AD-3, V-AD-5. -/
theorem test_tx_sendto :
    gives (exec (.txSendto 2#8 12#8) (sender 11#8 [(0, 0x68#8), (1, 0x69#8)])) { sender 11#8 [(0, 0x68#8), (1, 0x69#8)] with
      crc := 0xEB94#16, txs := frameHi, data := 7#16 } ∧
    gives (exec (.txSendto 1#8 255#8) (sender 11#8 [(0, 0x55#8)])) { sender 11#8 [(0, 0x55#8)] with
      crc := 0x6FC8#16, txs := [0x06#8, 0xFF#8, 0x0B#8, 0x55#8, 0x37#8, 0x90#8], data := 6#16 } ∧
    gives (exec (.txSendto 60#8 12#8) (sender 11#8 (filled 61 0#8))) { sender 11#8 (filled 61 0#8) with status := .oversize } ∧
    gives (exec (.txSendto 0#8 12#8) (sender 11#8 [])) { sender 11#8 [] with
      crc := 0x17FD#16, txs := [0x05#8, 0x0C#8, 0x0B#8, 0x02#8, 0xE8#8], data := 5#16 } := by decide +kernel

/-- V-AD-4: the longest addressed payload, 59 bytes. -/
theorem test_tx_sendto_longest : leaves (exec (.txSendto 59#8 12#8) (sender 11#8 (filled 61 0#8)))
    (fun t => t.crc == 0x41B2#16 && t.txs == 0x40#8 :: 0x0C#8 :: 0x0B#8 :: List.replicate 59 0#8 ++ [0x4D#8, 0xBE#8]) :=
  by decide +kernel

/-- V-RL-1, V-RL-3, V-RL-4, V-RL-5. -/
theorem test_tx_sendseq :
    gives (exec (.txSendseq 5#8 12#8 1#8) (sender 11#8 testCells)) { sender 11#8 testCells with
      crc := 0x9956#16, txs := frameTest, data := 11#16 } ∧
    gives (exec (.txSendseq 0#8 11#8 0x81#8) (sender 12#8 [])) { sender 12#8 [] with
      crc := 0x5D3C#16, txs := ackTest, data := 6#16 } ∧
    gives (exec (.txSendseq 59#8 12#8 1#8) (sender 11#8 (filled 61 0#8))) { sender 11#8 (filled 61 0#8) with
      status := .oversize } ∧
    gives (exec (.txSendseq 2#8 12#8 1#8) (sender 11#8 [(0, 0xAA#8)])) { sender 11#8 [(0, 0xAA#8)] with
      faultFlag := true, status := .faultUnwritten } := by decide +kernel

/-! ### Receive -/

/-- V-FR-12, V-FR-17, V-FR-21, V-FR-22, V-FR-24, V-FR-25. -/
theorem test_rx_avail :
    gives (exec .rxAvail (node 0#8 [0x04#8, 0x41#8])) { State.reset with rxbuf := [0x04#8, 0x41#8] } ∧
    gives (exec .rxAvail (node 0#8 (0x02#8 :: frame41))) { State.reset with badcnt := 1#16 } ∧
    gives (exec .rxAvail State.reset) State.reset ∧
    gives (exec .rxAvail (node 0#8 (frame41 ++ frame41))) { node 0#8 frame41 with rxbuf := frame41, data := 1#16 } ∧
    gives (exec .rxAvail (node 0#8 (0#8 :: 0#8 :: frame41))) { State.reset with badcnt := 1#16 } ∧
    gives (exec .rxAvail { node 0#8 [0x02#8] with badcnt := 0xFFFF#16 }) State.reset := by decide +kernel

/-- V-FR-11, V-FR-13, V-FR-14, V-FR-15 (the frame "test" of V-FR-2), V-FR-18, V-FR-26, V-AD-13. -/
theorem test_rx_recv :
    gives (exec (.rxRecv 16#8) (node 0#8 frame41)) { State.reset with
      crc := 0xF0B8#16, goodcnt := 1#16, outbuf := [0x41#8], data := 1#16 } ∧
    gives (exec (.rxRecv 16#8) (node 0#8 [0x04#8, 0x41#8])) { State.reset with
      rxbuf := [0x04#8, 0x41#8], status := .noFrame } ∧
    gives (exec (.rxRecv 16#8) (node 0#8 badFrame41)) { State.reset with
      crc := 0x8407#16, outbuf := [0x41#8], status := .badFcs, data := 1#16 } ∧
    gives (exec (.rxRecv 2#8) (node 0#8 [0x08#8, 0x74#8, 0x65#8, 0x73#8, 0x74#8, 0x00#8, 0x9F#8, 0xE1#8]))
       { State.reset with crc := 0xF0B8#16, goodcnt := 1#16, outbuf := [0x74#8, 0x65#8], data := 2#16 } ∧
    gives (exec (.rxRecv 16#8) (node 0#8 (0x41#8 :: frame41))) { State.reset with badcnt := 1#16, status := .noFrame } ∧
    gives (exec (.rxRecv 16#8) { node 0#8 frame41 with goodcnt := 0xFFFF#16 }) { State.reset with
      crc := 0xF0B8#16, outbuf := [0x41#8], data := 1#16 } ∧
    gives (exec (.rxRecv 16#8) (node 12#8 frameHi)) { node 12#8 [] with
      crc := 0xF0B8#16, goodcnt := 1#16, outbuf := [0x0C#8, 0x0B#8, 0x68#8, 0x69#8], data := 4#16 } :=
  by decide +kernel

/-- V-FR-20: a frame of MAX_FRAME_LEN bytes is received. -/
theorem test_rx_recv_longest :
    leaves (exec (.rxRecv 64#8) (node 0#8 (0x40#8 :: List.replicate 61 0#8 ++ [0x83#8, 0x39#8])))
      (fun t => t.status == .ok && t.data == 0x3D#16 && t.outbuf == List.replicate 61 0#8 && t.goodcnt == 1#16) :=
  by decide +kernel

/-- V-FR-23, V-CF-8. -/
theorem test_out_rd :
    gives (exec (.outRd 0#8) { State.reset with outbuf := [0x41#8] }) { State.reset with outbuf := [0x41#8], data := 0x41#16 } ∧
    gives (exec (.outRd 1#8) { State.reset with outbuf := [0x41#8] }) { State.reset with outbuf := [0x41#8], status := .range } ∧
    gives (exec (.outRd 0#8) State.reset) { State.reset with status := .range } := by decide +kernel

/-- V-AD-6, V-AD-7, V-AD-8, V-AD-9. -/
theorem test_rx_recvfrom :
    gives (exec (.rxRecvfrom 16#8 false) (node 12#8 frameHi)) { node 12#8 [] with
      crc := 0xF0B8#16, goodcnt := 1#16, outbuf := [0x68#8, 0x69#8], outfrom := 11#8, outto := 12#8, data := 2#16 } ∧
    gives (exec (.rxRecvfrom 16#8 false) (node 13#8 frameHi)) { node 13#8 [] with
      crc := 0xF0B8#16, goodcnt := 1#16, status := .filtered } ∧
    gives (exec (.rxRecvfrom 16#8 true) (node 13#8 frameHi)) { node 13#8 [] with
      crc := 0xF0B8#16, goodcnt := 1#16, outbuf := [0x68#8, 0x69#8], outfrom := 11#8, outto := 12#8, data := 2#16 } ∧
    gives (exec (.rxRecvfrom 16#8 false) (node 13#8 [0x07#8, 0xFF#8, 0x0B#8, 0x02#8, 0x55#8, 0x47#8, 0x25#8]))
       { node 13#8 [] with
        crc := 0xF0B8#16, goodcnt := 1#16, outbuf := [0x02#8, 0x55#8], outfrom := 11#8, outto := 255#8, data := 2#16 } :=
  by decide +kernel

/-- V-AD-10, V-AD-11, V-AD-12. -/
theorem test_rx_recvfrom_short_bad_cut :
    gives (exec (.rxRecvfrom 16#8 false) (node 12#8 frame41)) { node 12#8 [] with
      crc := 0xF0B8#16, goodcnt := 1#16, status := .short } ∧
    gives (exec (.rxRecvfrom 16#8 false) (node 12#8 [0x07#8, 0x0C#8, 0x0B#8, 0x68#8, 0x69#8, 0x6B#8, 0x15#8]))
       { node 12#8 [] with crc := 0xE131#16, status := .badFcs } ∧
    gives (exec (.rxRecvfrom 1#8 false) (node 12#8 frameHi)) { node 12#8 [] with
      crc := 0xF0B8#16, goodcnt := 1#16, outbuf := [0x68#8], outfrom := 11#8, outto := 12#8, data := 1#16 } :=
  by decide +kernel

/-- OUT.HDR after V-AD-6, and at reset (V-CF-8). -/
theorem test_out_hdr :
    gives (exec .outHdr { State.reset with outfrom := 11#8, outto := 12#8 }) { State.reset with
      outfrom := 11#8, outto := 12#8, data := 0x0C0B#16 } ∧
    gives (exec .outHdr State.reset) State.reset := by decide +kernel

/-! ### Sequence unit -/

/-- V-RL-6, V-RL-7. -/
theorem test_seq_next_and_rd :
    gives (exec .seqNext State.reset) { State.reset with seq := 1#7, data := 1#16 } ∧
    gives (exec .seqNext { State.reset with seq := 127#7 }) State.reset ∧
    gives (exec .seqRd { State.reset with seq := 127#7 }) { State.reset with seq := 127#7, data := 127#16 } :=
  by decide +kernel

/-- V-RL-28. -/
theorem test_ls_rd :
    gives (exec (.lsRd 11#8) { State.reset with lastseen := seen11 5#7 }) { State.reset with
      lastseen := seen11 5#7, data := 5#16 } ∧
    gives (exec (.lsRd 12#8) { State.reset with lastseen := seen11 5#7 }) { State.reset with lastseen := seen11 5#7 } :=
  by decide +kernel

/-- V-RL-8, V-RL-9, V-RL-14, V-RL-15, V-RL-17: delivery and duplicates, addressed and broadcast. -/
theorem test_rx_recvrel :
    gives (exec (.rxRecvrel 16#8) (node 12#8 frameTest)) { node 12#8 [] with
      crc := 0x5D3C#16, goodcnt := 1#16, outbuf := [0x74#8, 0x65#8, 0x73#8, 0x74#8, 0x00#8], outfrom := 11#8,
      outto := 12#8, txs := ackTest, lastseen := seen11 1#7, data := 5#16 } ∧
    gives (exec (.rxRecvrel 16#8) { node 12#8 frameTest with lastseen := seen11 1#7 }) { node 12#8 [] with
      crc := 0x5D3C#16, goodcnt := 1#16, txs := ackTest, lastseen := seen11 1#7, status := .dup, data := 1#16 } ∧
    gives (exec (.rxRecvrel 16#8) (node 13#8 [0x07#8, 0xFF#8, 0x0B#8, 0x01#8, 0x41#8, 0x8A#8, 0x59#8])) { node 13#8 [] with
      crc := 0xF0B8#16, goodcnt := 1#16, outbuf := [0x41#8], outfrom := 11#8, outto := 255#8, lastseen := seen11 1#7,
      data := 1#16 } ∧
    gives (exec (.rxRecvrel 16#8) { node 12#8 [0x07#8, 0x0C#8, 0x0B#8, 0x00#8, 0xAA#8, 0x69#8, 0x4B#8] with
      lastseen := seen11 127#7 }) { node 12#8 [] with
      crc := 0x4CB5#16, goodcnt := 1#16, outbuf := [0xAA#8], outfrom := 11#8, outto := 12#8,
      txs := [0x06#8, 0x0B#8, 0x0C#8, 0x80#8, 0x4A#8, 0xB3#8], lastseen := seen11 0#7, data := 1#16 } :=
  by decide +kernel

/-- V-RL-11, V-RL-12, V-RL-13, V-RL-16, V-RL-19: nothing delivered. -/
theorem test_rx_recvrel_not_delivered :
    gives (exec (.rxRecvrel 16#8) (node 11#8 ackTest)) { node 11#8 [] with
      crc := 0xF0B8#16, goodcnt := 1#16, status := .ackFrame } ∧
    gives (exec (.rxRecvrel 16#8) (node 13#8 frameTest)) { node 13#8 [] with
      crc := 0xF0B8#16, goodcnt := 1#16, status := .filtered } ∧
    gives (exec (.rxRecvrel 16#8) (node 12#8 [0x05#8, 0x0C#8, 0x0B#8, 0x02#8, 0xE8#8])) { node 12#8 [] with
      crc := 0xF0B8#16, goodcnt := 1#16, status := .short } ∧
    gives (exec (.rxRecvrel 16#8) (node 12#8 [0x07#8, 0x0C#8, 0x0B#8, 0x00#8, 0xAA#8, 0x69#8, 0x4B#8])) { node 12#8 [] with
      crc := 0x4CB5#16, goodcnt := 1#16, txs := [0x06#8, 0x0B#8, 0x0C#8, 0x80#8, 0x4A#8, 0xB3#8], status := .dup } ∧
    gives (exec (.rxRecvrel 16#8) (node 12#8 [0x0B#8, 0x0C#8, 0x0B#8, 0x01#8, 0x74#8])) { node 12#8 [] with
      rxbuf := [0x0B#8, 0x0C#8, 0x0B#8, 0x01#8, 0x74#8], status := .noFrame } := by decide +kernel

/-- V-RL-20, V-RL-21, V-RL-22, V-RL-23, V-RL-24, V-RL-25: what matches and what does not. -/
theorem test_rx_recvack :
    gives (exec (.rxRecvack 12#8 1#8) (node 11#8 ackTest)) { node 11#8 [] with
      crc := 0xF0B8#16, goodcnt := 1#16, status := .ackMatch, data := 1#16 } ∧
    gives (exec (.rxRecvack 12#8 1#8) (node 11#8 [0x07#8, 0x0B#8, 0x0C#8, 0x81#8, 0x99#8, 0x41#8, 0x06#8]))
       { node 11#8 [] with crc := 0xF0B8#16, goodcnt := 1#16, status := .ackMatch, data := 1#16 } ∧
    ∀ f ∈ [[0x06#8, 0x0B#8, 0x0C#8, 0x82#8, 0x58#8, 0x90#8], [0x06#8, 0x0B#8, 0x0D#8, 0x81#8, 0x1B#8, 0xBB#8],
        [0x07#8, 0x0B#8, 0x0C#8, 0x01#8, 0x41#8, 0x48#8, 0xD0#8], [0x06#8, 0xFF#8, 0x0C#8, 0x81#8, 0x96#8, 0x4D#8]],
      gives (exec (.rxRecvack 12#8 1#8) (node 11#8 f)) { node 11#8 [] with
        crc := 0xF0B8#16, goodcnt := 1#16, status := .other } := by
  decide +kernel

/-- V-RL-26, V-RL-27, and a frame for another node. -/
theorem test_rx_recvack_bad_short_filtered :
    gives (exec (.rxRecvack 12#8 1#8) (node 11#8 [0x06#8, 0x0B#8, 0x0C#8, 0x81#8, 0xC3#8, 0xA3#8])) { node 11#8 [] with
      crc := 0xE131#16, status := .badFcs } ∧
    gives (exec (.rxRecvack 12#8 1#8) (node 11#8 [0x04#8, 0x0B#8, 0xF4#8, 0xD6#8])) { node 11#8 [] with
      crc := 0xF0B8#16, goodcnt := 1#16, status := .short } ∧
    gives (exec (.rxRecvack 12#8 1#8) (node 13#8 ackTest)) { node 13#8 [] with
      crc := 0xF0B8#16, goodcnt := 1#16, status := .filtered } ∧
    gives (exec (.rxRecvack 12#8 1#8) (node 11#8 [])) { node 11#8 [] with status := .noFrame } := by decide +kernel

/-! ### Configuration, counters, NOP -/

/-- V-CF-1, V-CF-5, V-CF-6. -/
theorem test_nop_and_counters :
    gives (exec .nop { State.reset with data := 7#16, status := .dup }) State.reset ∧
    gives (exec .cntRdbad { State.reset with badcnt := 3#16, goodcnt := 7#16 }) { State.reset with
      badcnt := 3#16, goodcnt := 7#16, data := 3#16 } ∧
    gives (exec .cntRdgood { State.reset with badcnt := 3#16, goodcnt := 7#16 }) { State.reset with
      badcnt := 3#16, goodcnt := 7#16, data := 7#16 } ∧
    gives (exec .fltRd State.reset) State.reset := by decide +kernel

/-- V-CF-2, V-CF-3, V-CF-4. -/
theorem test_local_address :
    gives (exec (.cfgSetaddr 11#8) State.reset) (node 11#8 []) ∧
    gives (exec .cfgRdaddr (node 11#8 [])) { node 11#8 [] with data := 11#16 } ∧
    gives (exec (.cfgSetaddr 255#8) (node 11#8 [])) { node 11#8 [] with status := .range } ∧
    gives (exec (.cfgSetaddr 254#8) State.reset) (node 254#8 []) := by decide +kernel

/-- V-CF-7: FAULT is sticky and the block keeps running. -/
theorem test_fault_is_sticky :
    gives (exec (.txSend 1#8) { sender 0#8 [(0, 1#8)] with faultFlag := true }) { sender 0#8 [(0, 1#8)] with
      faultFlag := true, crc := 0x8651#16, txs := [0x04#8, 0x01#8, 0xAE#8, 0x79#8], data := 4#16 } ∧
    gives (exec .fltRd { State.reset with faultFlag := true }) { State.reset with faultFlag := true, data := 1#16 } :=
  by decide +kernel

/-! ### Assembler and pseudo-instructions (R82, R83) -/

/-- R82's five examples, a comment, and lines that are no command. -/
theorem test_assemble_line :
    ["CRC.UPD 0x31", "TXB.WR 2, 0x41", "TX.SENDSEQ 5, 12, 0x01", "RX.RECVFROM 16, 1", "RX.RECVACK 12, 1 ; wait",
      "OUT.HDR", "RX.RECVACK 12, 128", "RX.RECVFROM 16, 2", "CRC.UPD 256", "NOP 1", "TX.SEND", "MOV 1"].map
      (fun l => (assembleLine l.toList).map encode)
    = [some 0x11310000#32, some 0x20024100#32, some 0x23050C01#32, some 0x32100100#32, some 0x34000C01#32,
      some 0x36000000#32, none, none, none, none, none, none] := by decide +kernel

/-- R83's expansions, and their bounds. -/
theorem test_pseudo :
    Pseudo.expand (.txbLoad [0xAA#8, 0xBB#8]) = [.txbWr 0#8 0xAA#8, .txbWr 1#8 0xBB#8] ∧
    Pseudo.expand (.crcOver [0x31#8]) = [.crcInit, .crcUpd 0x31#8] ∧
    Pseudo.expand (.txAck 11#8 1#8) = [.txSendseq 0#8 11#8 0x81#8] ∧
    Pseudo.wellFormed Params.default (.txAck 11#8 127#8) = true ∧ Pseudo.wellFormed Params.default (.txAck 11#8 128#8) = false ∧
    Pseudo.wellFormed Params.default (.txbLoad (List.replicate 61 0#8)) = true ∧
    Pseudo.wellFormed Params.default (.txbLoad (List.replicate 62 0#8)) = false := by decide +kernel

/-! ### States that meet the statements' hypotheses, clause by clause at the bounds -/

/-- TXBUF holds the payload, from a check the kernel evaluates. -/
theorem holds_of_check {s : State} {p : List Byte}
    (h : (List.range p.length).all (fun i => s.txBufRead i == p[i]?) = true) : s.Holds p := by
  intro i hi
  simpa using List.all_eq_true.1 h i (List.mem_range.2 hi)

/-- TxbWrWritesOneCell: the first index refused, the last one written, a canonical TXBUF. -/
theorem test_meets_TxbWr :
    State.reset.params.maxFrameLen - 3 ≤ (61#8).toNat ∧ (60#8).toNat < State.reset.params.maxFrameLen - 3 ∧
    State.reset.txbuf.wf ∧ Memory.wf testCells := by decide

/-- GatherReadsExactlyWrittenCells: both sides occur. -/
theorem test_meets_Gather :
    (sender 0#8 testCells).txGather 6 = none ∧
    (sender 0#8 testCells).txGather 5 = some [0x74#8, 0x65#8, 0x73#8, 0x74#8, 0x00#8] := by decide

/-- TxSendResults: the three clauses at their bounds (62, a first unwritten cell, 61). -/
theorem test_meets_TxSend :
    State.reset.params.Legal ∧ State.reset.params.maxFrameLen - 3 < (62#8).toNat ∧
    (∃ i, i < (2#8).toNat ∧ (sender 0#8 [(0, 1#8)]).txBufRead i = none) ∧
    ((61#8).toNat ≤ State.reset.params.maxFrameLen - 3 ∧ (List.replicate 61 0#8).length = (61#8).toNat ∧
      (sender 0#8 (filled 61 0#8)).Holds (List.replicate 61 0#8)) :=
  ⟨by decide, by decide, ⟨1, by decide⟩, by decide, by decide, holds_of_check (by decide +kernel)⟩

/-- TxSendtoResults: 60, a first unwritten cell, 59. -/
theorem test_meets_TxSendto :
    State.reset.params.maxFrameLen - 5 < (60#8).toNat ∧
    (∃ i, i < (1#8).toNat ∧ State.reset.txBufRead i = none) ∧
    ((59#8).toNat ≤ State.reset.params.maxFrameLen - 5 ∧ (List.replicate 59 0#8).length = (59#8).toNat ∧
      (sender 11#8 (filled 61 0#8)).Holds (List.replicate 59 0#8)) :=
  ⟨by decide, ⟨0, by decide⟩, by decide, by decide, holds_of_check (by decide +kernel)⟩

/-- TxSendseqResults: 59, a first unwritten cell, 58. -/
theorem test_meets_TxSendseq :
    State.reset.params.maxFrameLen - 6 < (59#8).toNat ∧
    (∃ i, i < (1#8).toNat ∧ State.reset.txBufRead i = none) ∧
    ((58#8).toNat ≤ State.reset.params.maxFrameLen - 6 ∧ (List.replicate 58 0#8).length = (58#8).toNat ∧
      (sender 11#8 (filled 61 0#8)).Holds (List.replicate 58 0#8)) :=
  ⟨by decide, ⟨0, by decide⟩, by decide, by decide, holds_of_check (by decide +kernel)⟩

/-- RxPullResults, clauses 1 and 2: RXBUF has the first two bytes and RXQ the rest and one byte more; a partial frame. The
smallest and the largest LEN meet the window. -/
theorem test_meets_RxPull_frames :
    let s := { node 0#8 [0xAA#8, 0x3B#8, 0x99#8] with rxbuf := [0x04#8, 0x41#8] }
    s.rxq = [0xAA#8, 0x3B#8] ++ [0x99#8] ∧ s.rxbuf ++ [0xAA#8, 0x3B#8] = 0x04#8 :: [0x41#8, 0xAA#8, 0x3B#8] ∧
    frame41.length = (0x04#8).toNat ∧ 4 ≤ (0x04#8).toNat ∧ (0x40#8).toNat ≤ s.params.maxFrameLen ∧
    (let t := node 0#8 [0x04#8, 0x41#8]
     t.rxbuf ++ t.rxq = 0x04#8 :: [0x41#8] ∧ [0x04#8, 0x41#8].length < (0x04#8).toNat) := by decide

/-- RxPullResults, clauses 3 and 4: the first bytes 3 and 65, on either side of the window, and nothing pending. -/
theorem test_meets_RxPull_rest :
    (node 0#8 [3#8, 4#8]).rxbuf = [] ∧ (node 0#8 [3#8, 4#8]).rxq = 3#8 :: [4#8] ∧
    ¬ (4 ≤ (3#8).toNat ∧ (3#8).toNat ≤ State.reset.params.maxFrameLen) ∧
    ¬ (4 ≤ (65#8).toNat ∧ (65#8).toNat ≤ State.reset.params.maxFrameLen) ∧
    State.reset.rxbuf = [] ∧ State.reset.rxq = [] := by decide

/-- RxTakeResults and RxAvailResults: a complete buffer with a good and one with a bad residue. -/
theorem test_meets_RxTake :
    State.complete { State.reset with rxbuf := frame41 } = true ∧ crcOver frame41 = 0xF0B8#16 ∧
    State.complete { State.reset with rxbuf := badFrame41 } = true ∧ crcOver badFrame41 ≠ 0xF0B8#16 := by decide +kernel

/-- RxRecvResults, RxRecvfromResults, RxRecvrelResults, RxRecvackResults: no frame, a bad one, a good one. -/
theorem test_meets_pulled_frame :
    (node 11#8 []).rxPull.complete = false ∧
    ((node 11#8 badFrame41).rxPull.complete = true ∧ crcOver (node 11#8 badFrame41).rxPull.rxbuf ≠ 0xF0B8#16) ∧
    ((node 11#8 frame41).rxPull.complete = true ∧ crcOver (node 11#8 frame41).rxPull.rxbuf = 0xF0B8#16 ∧
      (frameBody (node 11#8 frame41).rxPull.rxbuf).length < 2) ∧
    ((node 12#8 frameHi).rxPull.complete = true ∧ crcOver (node 12#8 frameHi).rxPull.rxbuf = 0xF0B8#16 ∧
      frameBody (node 12#8 frameHi).rxPull.rxbuf = 12#8 :: 11#8 :: [0x68#8, 0x69#8]) := by decide +kernel

/-- RxRecvfromResults: an accepted and a filtered destination for that last frame. -/
theorem test_meets_RxRecvfrom :
    (12#8 = (node 12#8 frameHi).localAddr) ∧
    ¬ (false = true ∨ 12#8 = (node 13#8 frameHi).localAddr ∨ 12#8 = 255#8) := by decide

/-- RxRecvrelResults: the six ends after a good residue: SHORT, FILTERED, ACKFRAME, DUP, delivery, and a broadcast. -/
theorem test_meets_RxRecvrel :
    (frameBody (node 12#8 [0x05#8, 0x0C#8, 0x0B#8, 0x02#8, 0xE8#8]).rxPull.rxbuf).length < 3 ∧
    frameBody (node 12#8 frameTest).rxPull.rxbuf = 12#8 :: 11#8 :: 1#8 :: [0x74#8, 0x65#8, 0x73#8, 0x74#8, 0x00#8] ∧
    ¬ (12#8 = (node 13#8 frameTest).localAddr ∨ 12#8 = 255#8) ∧ 12#8 = (node 12#8 frameTest).localAddr ∧
    (frameBody (node 11#8 ackTest).rxPull.rxbuf = 11#8 :: 12#8 :: 0x81#8 :: [] ∧ (0x81#8).getLsbD 7 = true ∧
      11#8 = (node 11#8 ackTest).localAddr) ∧
    (1#8).getLsbD 7 = false ∧ (seen11 1#7)[11].toNat = (1#8).toNat ∧ State.reset.lastseen[11].toNat ≠ (1#8).toNat ∧
    frameBody (node 13#8 [0x07#8, 0xFF#8, 0x0B#8, 0x01#8, 0x41#8, 0x8A#8, 0x59#8]).rxPull.rxbuf
      = 255#8 :: 11#8 :: 1#8 :: [0x41#8] := by decide +kernel

/-- RxRecvackResults: a body of length 1, a frame for another node, the awaited acknowledgement, and another one. -/
theorem test_meets_RxRecvack :
    (frameBody (node 11#8 [0x04#8, 0x0B#8, 0xF4#8, 0xD6#8]).rxPull.rxbuf).length < 2 ∧
    ¬ (11#8 = (node 13#8 ackTest).localAddr ∨ 11#8 = 255#8) ∧
    (11#8 = (node 11#8 ackTest).localAddr ∧ ∃ tail, [0x81#8] = ((1#8 : Byte) ||| 0x80#8) :: tail) ∧
    ¬ (12#8 = 12#8 ∧ 11#8 = (node 11#8 ackTest).localAddr ∧ ∃ tail, [0x82#8] = ((1#8 : Byte) ||| 0x80#8) :: tail) := by
  refine ⟨by decide +kernel, by decide, ⟨by decide, [], by decide⟩, ?_⟩
  rintro ⟨-, -, tail, h⟩
  exact absurd (List.cons.inj h).1 (by decide)

/-- AcknowledgementFrameLayout, ResetSatisfiesTheInvariant: the smallest and the largest legal parameters. -/
theorem test_meets_legal_parameters :
    Params.Legal { maxFrameLen := 6, cntW := 1 } ∧ Params.Legal { maxFrameLen := 255, cntW := 16 } ∧
    ¬ Params.Legal { maxFrameLen := 5, cntW := 1 } := by decide

/-- OnlyDataFramesAreAcknowledged and the statements about what any command writes: a command that acknowledges, delivers,
records, counts and takes bytes from RXQ. -/
theorem test_meets_command_effects : ∃ t, exec (.rxRecvrel 16#8) (node 12#8 frameTest) = .next t ∧
    t.txs ≠ [] ∧ t.outbuf ≠ [] ∧ t.lastseen[11] ≠ 0#7 ∧ t.goodcnt ≠ 0#16 ∧ t.crc ≠ 0xFFFF#16 ∧ t.outfrom ≠ 0#8 ∧
    t.rxq ≠ frameTest ∧ receives (.rxRecvrel 16#8) = true ∧ t.status ≠ .noFrame := ⟨_, rfl, by decide +kernel⟩

/-- RegistersHaveOnlyTheirWriters, BuffersHaveOnlyTheirWriters, CrcAfterFrameCommands: the writers that command is not. -/
theorem test_meets_other_writers :
    (∃ t, exec (.txSend 2#8) State.reset = .next t ∧ t.faultFlag ≠ false ∧ t.status = .faultUnwritten) ∧
    (∃ t, exec .rxAvail (node 0#8 [2#8]) = .next t ∧ t.badcnt ≠ 0#16) ∧
    (∃ t, exec .seqNext State.reset = .next t ∧ t.seq ≠ 0#7) ∧
    (∃ t, exec (.txbWr 0#8 1#8) State.reset = .next t ∧ t.txbuf ≠ []) ∧
    (∃ t, exec (.txSend 0#8) State.reset = .next t ∧ t.txs ≠ [] ∧ transmits (.txSend 0#8) = true ∧ t.status = .ok) ∧
    (∃ t, exec (.cfgSetaddr 9#8) State.reset = .next t ∧ t.localAddr ≠ 0#8) ∧
    (∃ t, exec (.rxAvail) (node 0#8 [4#8]) = .next t ∧ t.rxbuf ≠ []) :=
  ⟨⟨_, rfl, by decide⟩, ⟨_, rfl, by decide⟩, ⟨_, rfl, by decide⟩, ⟨_, rfl, by decide⟩, ⟨_, rfl, by decide⟩,
    ⟨_, rfl, by decide⟩, ⟨_, rfl, by decide⟩⟩

/-- SequenceWrapMeetsTheSentinel, LocalAddressResults, ReadCommandsAreIdempotent. -/
theorem test_meets_sentinel_and_reads :
    frameBody (node 12#8 [0x07#8, 0x0C#8, 0x0B#8, 0x00#8, 0xAA#8, 0x69#8, 0x4B#8]).rxPull.rxbuf
      = 12#8 :: 11#8 :: 0#8 :: [0xAA#8] ∧
    State.lastSeen { State.reset with lastseen := seen11 127#7 } 11#8 = 127#7 ∧ State.reset.lastSeen 11#8 = 0#7 ∧
    State.seq { State.reset with seq := 127#7 } = 127#7 ∧ (254#8 : Byte) ≠ 255#8 ∧ onlyReads .crcRdfcs = true := by
  decide +kernel

/-- StepKeepsTheInvariant, StepKeepsTheHostInvariant, FaultIsSticky: a step from a state with each premise. -/
theorem test_meets_step_premises :
    (∃ t, step State.reset = .next t) ∧
    (State.HostInv { State.reset with task := .load .base [1#8] 1 } ∧
      ∃ t, step { State.reset with task := .load .base [1#8] 1 } = .next t) ∧
    (∃ t, step { State.reset with faultFlag := true } = .next t) ∧
    ¬ (State.reset.cmd = none ∧ ∃ rest, State.reset.agenda = .powerOn :: rest) := by
  refine ⟨⟨_, rfl⟩, ⟨⟨by decide, by decide⟩, ⟨_, rfl⟩⟩, ⟨_, rfl⟩, ?_⟩
  rintro ⟨-, rest, h⟩
  cases h

/-- BlockWaitsForACommand and EnvironmentMoves. -/
theorem test_meets_idle_node :
    State.reset.cmd = none ∧ State.reset.agenda = [] ∧ State.reset.task = .idle ∧
    State.agenda { State.reset with agenda := [.arrive [1#8], .consume 2, .tick 3, .command 0#32] }
      = .arrive [1#8] :: [.consume 2, .tick 3, .command 0#32] ∧
    State.agenda { State.reset with agenda := [.consume 2] } = .consume 2 :: [] ∧
    State.agenda { State.reset with agenda := [.tick 3] } = .tick 3 :: [] ∧
    State.agenda { State.reset with agenda := [.command 0#32] } = .command 0#32 :: [] := by decide

/-- BaseLayerRoundTrip, at the longest payload. -/
theorem test_meets_BaseLayerRoundTrip :
    let p := List.replicate 61 0#8
    let s := sender 0#8 (filled 61 0#8)
    s.params.Legal ∧ State.reset.params = s.params ∧ 1 ≤ p.length ∧ p.length ≤ s.params.maxPayload ∧
    (61#8).toNat = p.length ∧ s.Holds p ∧ p.length ≤ (61#8).toNat ∧ State.reset.rxbuf = [] ∧ State.reset.rxq = [] :=
  ⟨by decide, rfl, by decide, by decide, by decide, holds_of_check (by decide +kernel), by decide, rfl, rfl⟩

/-- AddressedDelivery, at the longest payload, with a receiver that accepts and one that does not. -/
theorem test_meets_AddressedDelivery :
    let p := List.replicate 59 0#8
    let s := sender 11#8 (filled 61 0#8)
    s.params.Legal ∧ (node 12#8 []).params = s.params ∧ p.length ≤ s.params.maxPayloadAddr ∧ (59#8).toNat = p.length ∧
    s.Holds p ∧ (node 12#8 []).rxbuf = [] ∧ (node 12#8 []).rxq = [] ∧ 12#8 = (node 12#8 []).localAddr ∧
    ¬ (false = true ∨ 12#8 = (node 13#8 []).localAddr ∨ 12#8 = 255#8) :=
  ⟨by decide, rfl, by decide, by decide, holds_of_check (by decide +kernel), rfl, rfl, by decide, by decide⟩

/-- ReliableDeliveryAndSuppression, at the longest payload. -/
theorem test_meets_ReliableDelivery :
    let p := List.replicate 58 0#8
    let s := sender 11#8 (filled 61 0#8)
    let r := node 12#8 []
    s.params.Legal ∧ r.params = s.params ∧ p.length ≤ s.params.maxPayloadRel ∧ (58#8).toNat = p.length ∧ s.Holds p ∧
    r.rxbuf = [] ∧ r.rxq = [] ∧ r.localAddr = 12#8 ∧ (12#8 : Byte) ≠ 255#8 ∧ s.rxbuf = [] ∧ s.rxq = [] ∧
    r.lastSeen s.localAddr ≠ 127#7 :=
  ⟨by decide, rfl, by decide, by decide, holds_of_check (by decide +kernel), rfl, rfl, rfl, by decide, rfl, rfl,
    by decide +kernel⟩

/-- ResynchronisationDoesNotStall: program P2's noise, then a payload. -/
theorem test_meets_Resynchronisation :
    (node 0#8 [0x02#8, 0x77#8]).rxbuf = [] ∧ (node 0#8 [0x02#8, 0x77#8]).rxq = 0x02#8 :: [0x77#8] ∧
    ¬ (4 ≤ (0x02#8).toNat ∧ (0x02#8).toNat ≤ State.reset.params.maxFrameLen) ∧
    1 ≤ [0x74#8].length ∧ [0x74#8].length ≤ State.reset.params.maxPayload := by decide

/-- LoopbackDeliversToEveryOtherNode: two nodes, the first of which transmits. -/
theorem test_meets_Loopback : ∃ n n', [(State.reset.present 0x21000000#32), node 12#8 []][0]? = some n ∧
    step n = .next n' ∧ n'.txs = [0x03#8, 0xE3#8, 0xC2#8] :=
  ⟨_, _, rfl, rfl, by decide +kernel⟩

/-- PseudoInstructionEffects, HostSendTransmitsItsPayload: the longest payload, and an idle node called to send it. -/
theorem test_meets_HostSend :
    let p := List.replicate 61 7#8
    let s := { State.reset with agenda := [.call (.send p)] }
    s.params.Legal ∧ p.length ≤ s.params.maxPayload ∧ s.cmd = none ∧ s.task = .idle ∧ s.agenda = [.call (.send p)] := by
  decide

/-- OversizeSendsFailAtOnce: 62 bytes, 60 bytes and 59 bytes for the three layers (H4). -/
theorem test_meets_Oversize :
    State.reset.params.maxPayload < (List.replicate 62 0#8).length ∧
    State.reset.params.maxPayloadAddr < (List.replicate 60 0#8).length ∧
    State.reset.params.maxPayloadRel < (List.replicate 59 0#8).length ∧
    (State.agenda { State.reset with agenda := [.call (.sendToWait 12#8 (List.replicate 59 0#8) 1000 3)] })
      = .call (.sendToWait 12#8 (List.replicate 59 0#8) 1000 3) :: [] := by decide

/-- One host_sendToWait call of H1's kind. -/
def job1 : WaitJob := { dest := 12#8, payload := [0xAA#8], timeoutMs := 1000, retries := 0, seq := 1#7 }

/-- SendToWaitTurns: each clause's task, at the bounds of its numbers (k = RETRIES, k = RETRIES + 1, 999 ms, 1000 ms). -/
theorem test_meets_SendToWait :
    0 ≤ job1.retries ∧ job1.retries < 1 ∧ job1.dest ≠ 255#8 ∧ WaitJob.dest { job1 with dest := 255#8 } = 255#8 ∧
    (let s := { State.reset with task := .polled job1 0 0, clock := 999, status := .noFrame }
     s.task = .polled job1 0 0 ∧ s.status ≠ .ackMatch ∧ s.clock - 0 < job1.timeoutMs) ∧
    (let s := { State.reset with task := .transmitted job1 0 0, clock := 1000 }
     s.task = .transmitted job1 0 0 ∧ job1.timeoutMs ≤ s.clock - 0) ∧
    State.status { State.reset with task := .polled job1 0 0, status := .ackMatch } = .ackMatch := by decide

/-- SendToWaitTurns, its first clauses: a call at the payload limit, SEQ.NEXT answered with and without a payload to load, the
last TXB.WR and the end of the load. -/
theorem test_meets_SendToWait_start :
    (let s := { State.reset with agenda := [.call (.sendToWait 12#8 (List.replicate 58 0#8) 1000 3)] }
     s.cmd = none ∧ s.task = .idle ∧ s.agenda = .call (.sendToWait 12#8 (List.replicate 58 0#8) 1000 3) :: [] ∧
       (List.replicate 58 0#8).length ≤ s.params.maxPayloadRel) ∧
    (let s := { State.reset with task := .seqNext job1, data := 1#16 }
     s.task = .seqNext job1 ∧ job1.payload = 0xAA#8 :: [] ∧ WaitJob.payload { job1 with payload := [] } = []) ∧
    (let s := { State.reset with task := .load (.reliable job1) [1#8, 2#8] 1 }
     s.task = .load (.reliable job1) [1#8, 2#8] 1 ∧ 1 < [1#8, 2#8].length ∧ [1#8, 2#8].length ≤ 2) := by decide

/-- SendToWaitTurns, the phases of R209: each phase occurs, RETRIES = 0 has no Retrying, and a window that closes at its first
test was AwaitingAck (H1, H2). -/
theorem test_send_phases :
    State.sendPhase State.reset = some .idle ∧
    State.sendPhase { State.reset with task := .seqNext job1 } = none ∧
    State.sendPhase { State.reset with task := .attempt job1 0 } = some .sending ∧
    State.sendPhase { State.reset with task := .transmitted job1 0 0, cmd := some 0x23010C01#32 } = some .sending ∧
    State.sendPhase { State.reset with task := .transmitted job1 0 0, clock := 1000 } = some .awaitingAck ∧
    State.sendPhase { State.reset with task := .polled job1 0 0 } = some .awaitingAck ∧
    State.sendPhase { State.reset with task := .attempt job1 1 } = some .exhausted ∧
    State.sendPhase { State.reset with task := .attempt { job1 with retries := 3 } 1 } = some .retrying ∧
    State.sendPhase { State.reset with result := some .failWait } = some .exhausted ∧
    State.sendPhase { State.reset with result := some .fail } = some .idle ∧
    State.sendPhase { State.reset with result := some .acknowledged } = some .acknowledged := by decide

/-- Surroundings in which a millisecond passes before every step, and nothing else happens. -/
def ticking : Nat → Surroundings := fun _ => { Surroundings.quiet with ms := 1 }

/-- R207's premise is met by a run in the middle of a host_sendToWait call. -/
theorem test_meets_ClockExceedsEveryBound :
    let s := { State.reset with task := .attempt job1 1 }
    s.task.isSendToWait = true ∧ ClockExceedsEveryBound ticking s := by
  intro s
  have run : ∀ n, runState ticking s (n + 1) = { State.reset with result := some .failWait, clock := n + 1 } := by
    intro n
    induction n with
    | zero => rfl
    | succ n ih =>
      change ((runState ticking s (n + 1)).surround (ticking (n + 1))).steps = _
      rw [ih]
      rfl
  refine ⟨rfl, fun bound => ⟨bound + 1, ?_⟩⟩
  rw [run]
  exact Nat.lt_succ_self bound

/-- R212's premise is met by surroundings that append nothing, and not by surroundings that append for ever. -/
theorem test_meets_AppendsFinitelyOften :
    AppendsFinitelyOften ticking ∧ ¬ AppendsFinitelyOften (fun _ => { Surroundings.quiet with arrives := frame41 }) ∧
    HostTask.isReceive (.receiving (.reliable 16#8)) = true := by
  refine ⟨⟨0, fun _ _ => rfl⟩, ?_, rfl⟩
  rintro ⟨n, h⟩
  exact List.cons_ne_nil _ _ (h n le_rfl)

/-- ReceiveLoopTurns: a call, NOFRAME, OK with bytes to read, BADFCS with none, the last but one and the last byte, and the
addresses. -/
theorem test_meets_ReceiveLoop :
    (let s := { State.reset with agenda := [.call (.recvFromAck 16#8)] }
     s.cmd = none ∧ s.task = .idle ∧ s.agenda = .call (.recvFromAck 16#8) :: []) ∧
    State.status { State.reset with task := .receiving (.reliable 16#8), status := .noFrame } = .noFrame ∧
    (let s := { State.reset with task := .receiving (.reliable 16#8), data := 5#16 }
     s.task = .receiving (.reliable 16#8) ∧ s.status = .ok ∧ 0 < s.data.toNat) ∧
    (let s := { State.reset with task := .receiving (.base 0#8), status := .badFcs }
     s.status ≠ .noFrame ∧ s.status ≠ .ok ∧ s.data = 0#16) ∧
    (let s := { State.reset with task := .reading true true 2 [] }
     s.task = .reading true true 2 [] ∧ ([] ++ [s.data.extractLsb' 0 8]).length < 2 ∧
       2 ≤ ([7#8] ++ [s.data.extractLsb' 0 8]).length) ∧
    State.task { State.reset with task := .header true [7#8] } = .header true [7#8] := by decide

/-- ReceiveLoopTurns and WaitAvailableHolds: the other statuses and counts of the clauses. -/
theorem test_meets_receive_turns :
    (let s := { State.reset with task := .receiving (.base 16#8), status := .badFcs, data := 1#16 }
     s.task = .receiving (.base 16#8) ∧ s.status = .badFcs ∧ 0 < s.data.toNat) ∧
    (let s := { State.reset with task := .receiving (.addressed 16#8 false true), status := .filtered }
     s.status ≠ .noFrame ∧ s.status ≠ .ok ∧ HostReceive.addressed 16#8 false true ≠ .base 16#8) ∧
    HostReceive.reports (.reliable 16#8) = true ∧ HostReceive.reports (.base 16#8) = false ∧
    State.data { State.reset with task := .receiving (.reliable 16#8) } = 0#16 ∧
    State.task { State.reset with task := .waiting } = .waiting ∧ (node 0#8 [1#8]).rxq ≠ [] := by decide

/-! ### Host procedures (46_host.md, part 3 of the vectors) -/

/-- H1: after the poll window of the only attempt, one frame was sent and the call fails; H3: a broadcast is acknowledged at
once. Each is one turn of the host. -/
theorem test_send_to_wait_turns :
    gives (step { State.reset with task := .polled job1 0 0, status := .noFrame, clock := 400 })
      { State.reset with task := .polled job1 0 0, status := .noFrame, clock := 400, cmd := some 0x34000C01#32 } ∧
    gives (step { State.reset with task := .polled job1 0 0, status := .noFrame, clock := 1000 })
      { State.reset with task := .attempt job1 1, status := .noFrame, clock := 1000 } ∧
    gives (step { State.reset with task := .attempt job1 1 }) { State.reset with result := some .failWait } ∧
    gives (step { State.reset with task := .transmitted { job1 with dest := 255#8 } 0 0 })
      { State.reset with result := some .acknowledged } := by decide +kernel

/-- H7's first turn: host_recvFromAck goes on after ACKFRAME; and a call issues its first command. -/
theorem test_recv_from_ack_turns :
    gives (step { State.reset with task := .receiving (.reliable 16#8), status := .ackFrame })
      { State.reset with task := .receiving (.reliable 16#8), status := .ackFrame, cmd := some 0x33100000#32 } ∧
    gives (step { State.reset with agenda := [.call (.recvFromAck 16#8)] })
      { State.reset with task := .receiving (.reliable 16#8), cmd := some 0x33100000#32 } ∧
    gives (step { State.reset with agenda := [.powerOn], crc := 0#16, rxq := [1#8], localAddr := 7#8, faultFlag := true })
      { State.reset with rxq := [1#8] } := by decide +kernel

end Sys2Proof.Tests
end

section
/-! PROOFS. The state's family (10_state.md): what a command can do to the state, said once (`ExecEffect`), what host and
environment can do (`OnlyAround`), and from these who writes each element, the sticky FAULT and the invariants of R43. -/

namespace Sys2Proof.Machine

/-! ### The acknowledgement, field by field -/

section Acknowledge

variable (s : State) (dest src : Byte) (q : BitVec 7)

/-- The acknowledgement writes CRC and TXS and nothing else (R166, R172). -/
theorem acknowledge_frame : ∃ c o, s.acknowledge dest src q = { s with crc := c, txs := o } := by
  rcases acknowledge_cases s dest src q with ⟨_, h⟩ | ⟨_, h⟩
  · exact ⟨_, _, h⟩
  · exact ⟨_, _, h⟩

@[simp] theorem State.acknowledge_params : (s.acknowledge dest src q).params = s.params := by
  obtain ⟨_, _, h⟩ := acknowledge_frame s dest src q; rw [h]
@[simp] theorem State.acknowledge_rxbuf : (s.acknowledge dest src q).rxbuf = s.rxbuf := by
  obtain ⟨_, _, h⟩ := acknowledge_frame s dest src q; rw [h]
@[simp] theorem State.acknowledge_badcnt : (s.acknowledge dest src q).badcnt = s.badcnt := by
  obtain ⟨_, _, h⟩ := acknowledge_frame s dest src q; rw [h]
@[simp] theorem State.acknowledge_goodcnt : (s.acknowledge dest src q).goodcnt = s.goodcnt := by
  obtain ⟨_, _, h⟩ := acknowledge_frame s dest src q; rw [h]
@[simp] theorem State.acknowledge_txbuf : (s.acknowledge dest src q).txbuf = s.txbuf := by
  obtain ⟨_, _, h⟩ := acknowledge_frame s dest src q; rw [h]
@[simp] theorem State.acknowledge_outbuf : (s.acknowledge dest src q).outbuf = s.outbuf := by
  obtain ⟨_, _, h⟩ := acknowledge_frame s dest src q; rw [h]
@[simp] theorem State.acknowledge_outfrom : (s.acknowledge dest src q).outfrom = s.outfrom := by
  obtain ⟨_, _, h⟩ := acknowledge_frame s dest src q; rw [h]
@[simp] theorem State.acknowledge_outto : (s.acknowledge dest src q).outto = s.outto := by
  obtain ⟨_, _, h⟩ := acknowledge_frame s dest src q; rw [h]
@[simp] theorem State.acknowledge_localAddr : (s.acknowledge dest src q).localAddr = s.localAddr := by
  obtain ⟨_, _, h⟩ := acknowledge_frame s dest src q; rw [h]
@[simp] theorem State.acknowledge_seq : (s.acknowledge dest src q).seq = s.seq := by
  obtain ⟨_, _, h⟩ := acknowledge_frame s dest src q; rw [h]
@[simp] theorem State.acknowledge_lastseen : (s.acknowledge dest src q).lastseen = s.lastseen := by
  obtain ⟨_, _, h⟩ := acknowledge_frame s dest src q; rw [h]
@[simp] theorem State.acknowledge_faultFlag : (s.acknowledge dest src q).faultFlag = s.faultFlag := by
  obtain ⟨_, _, h⟩ := acknowledge_frame s dest src q; rw [h]
@[simp] theorem State.acknowledge_rxq : (s.acknowledge dest src q).rxq = s.rxq := by
  obtain ⟨_, _, h⟩ := acknowledge_frame s dest src q; rw [h]
@[simp] theorem State.acknowledge_cmd : (s.acknowledge dest src q).cmd = s.cmd := by
  obtain ⟨_, _, h⟩ := acknowledge_frame s dest src q; rw [h]
@[simp] theorem State.acknowledge_task : (s.acknowledge dest src q).task = s.task := by
  obtain ⟨_, _, h⟩ := acknowledge_frame s dest src q; rw [h]
@[simp] theorem State.acknowledge_result : (s.acknowledge dest src q).result = s.result := by
  obtain ⟨_, _, h⟩ := acknowledge_frame s dest src q; rw [h]
@[simp] theorem State.acknowledge_clock : (s.acknowledge dest src q).clock = s.clock := by
  obtain ⟨_, _, h⟩ := acknowledge_frame s dest src q; rw [h]
@[simp] theorem State.acknowledge_agenda : (s.acknowledge dest src q).agenda = s.agenda := by
  obtain ⟨_, _, h⟩ := acknowledge_frame s dest src q; rw [h]

end Acknowledge

/-! ### What a command can do -/

/-- Everything the command `i` can make of the state `s`: one constructor per effect, not per command, each with the STATUS
it reports and what its success rests on. `exec_next_effect` and `exec_effect` tie it to `exec`. -/
inductive ExecEffect (s : State) : Instr → State → Prop where
  /-- A read command only responds (R63). -/
  | read {i : Instr} (h : onlyReads i = true) (st : Status) (d : Half) (hst : st ∈ producedBy i) :
      ExecEffect s i (s.respond st d)
  /-- A write outside its legal range only responds (R121, R181). -/
  | range {i : Instr} (h : Status.range ∈ producedBy i) : ExecEffect s i (s.respond .range 0#16)
  /-- CRC.INIT (R104). -/
  | crcInit : ExecEffect s .crcInit (State.respond { s with crc := Sys2Proof.crcInit } .ok 0#16)
  /-- CRC.UPD (R105). -/
  | crcUpd (byte : Byte) :
      ExecEffect s (.crcUpd byte) (State.respond { s with crc := crcUpdate s.crc byte } .ok (crcUpdate s.crc byte))
  /-- TXB.WR in its range (R121). -/
  | txbWr (idx byte : Byte) (h : idx.toNat < s.params.maxPayload) :
      ExecEffect s (.txbWr idx byte) ((s.txBufWrite idx.toNat byte).respond .ok 0#16)
  /-- CFG.SETADDR of an address that is not the broadcast one (R181). -/
  | cfgSetaddr (addr : Byte) (h : addr ≠ broadcast) :
      ExecEffect s (.cfgSetaddr addr) (State.respond { s with localAddr := addr } .ok 0#16)
  /-- SEQ.NEXT (R161). -/
  | seqNext : ExecEffect s .seqNext (State.respond { s with seq := s.seq + 1#7 } .ok (seqData (s.seq + 1#7)))
  /-- A transmit whose length exceeds the layer's limit (R123, R141, R163). -/
  | oversize {i : Instr} (h : transmits i = true) : ExecEffect s i (s.respond .oversize 0#16)
  /-- A transmit that meets an unwritten cell (R129, R223). -/
  | unwritten {i : Instr} (h : transmits i = true) :
      ExecEffect s i ((s.raiseFault .unwritten).respond .faultUnwritten 0#16)
  /-- A transmit that emits its frame (R122). -/
  | sent {i : Instr} (h : transmits i = true) (body : List Byte) :
      ExecEffect s i ((s.emitFrame body).respond .ok (zext16 (lenByte body)))
  /-- RX.AVAIL (R126). -/
  | rxAvail : ExecEffect s .rxAvail (s.rxPull.respond .ok (verdictData s.rxPull.complete))
  /-- A receive without a complete frame (R127, R143, R167, R168). -/
  | noFrame {i : Instr} (h : receives i = true) (hc : s.rxPull.complete = false) :
      ExecEffect s i (s.rxPull.respond .noFrame 0#16)
  /-- RX.RECV of a complete frame (R127). -/
  | baseFrame (cap : Byte) (hc : s.rxPull.complete = true) :
      ExecEffect s (.rxRecv cap) (s.rxPull.deliverBase cap)
  /-- Another receive of a frame whose residue is not the good one (R143, R167, R168). -/
  | badFcs {i : Instr} (h : receives i = true) (hc : s.rxPull.complete = true) (hg : goodFrame s.rxPull.rxbuf = false) :
      ExecEffect s i (s.rxPull.rxTake.respond .badFcs 0#16)
  /-- A good frame is consumed and not delivered (R145, R167, R168). -/
  | undelivered {i : Instr} (h : receives i = true) (hc : s.rxPull.complete = true)
      (hg : goodFrame s.rxPull.rxbuf = true) (st : Status) (d : Half) (hst : st ∈ producedBy i)
      (hgood : st ≠ .noFrame ∧ st ≠ .badFcs) :
      ExecEffect s i (s.rxPull.rxTake.respond st d)
  /-- RX.RECVFROM delivers an accepted frame (R143). -/
  | addressedFrame (cap : Byte) (promisc : Bool) (dest src : Byte) (inner : List Byte) (hc : s.rxPull.complete = true)
      (hg : goodFrame s.rxPull.rxbuf = true) (hb : frameBody s.rxPull.rxbuf = dest :: src :: inner) :
      ExecEffect s (.rxRecvfrom cap promisc)
        (((s.rxPull.rxTake.setOutput (truncateTo cap inner)).setOutputHeader dest src).respond .ok
          (countData (truncateTo cap inner).length))
  /-- RX.RECVREL acknowledges a duplicate and does not deliver it (R167). -/
  | duplicate (cap dest src : Byte) (q : BitVec 7) (hc : s.rxPull.complete = true)
      (hg : goodFrame s.rxPull.rxbuf = true) :
      ExecEffect s (.rxRecvrel cap) ((s.rxPull.rxTake.acknowledge dest src q).respond .dup (seqData q))
  /-- RX.RECVREL acknowledges, records and delivers a new message (R167). -/
  | newMessage (cap dest src flag : Byte) (inner : List Byte) (hc : s.rxPull.complete = true)
      (hg : goodFrame s.rxPull.rxbuf = true) (hb : frameBody s.rxPull.rxbuf = dest :: src :: flag :: inner) :
      ExecEffect s (.rxRecvrel cap)
        (((((s.rxPull.rxTake.acknowledge dest src (seqField flag)).setLastSeen src (seqField flag)).setOutput
          (truncateTo cap inner)).setOutputHeader dest src).respond .ok (countData (truncateTo cap inner).length))

theorem transmit_effect {i : Instr} (h : transmits i = true) (s : State) (limit : Nat) (header : List Byte) (len : Byte) :
    ExecEffect s i (s.transmit limit header len) := by
  rcases transmit_cases s limit header len with ⟨_, e⟩ | ⟨_, _, e⟩ | ⟨_, payload, _, e⟩ <;> rw [e]
  · exact .oversize h
  · exact .unwritten h
  · exact .sent h (header ++ payload)

/-- The receives' common part leaves only the layer's part to be shown, on a good and complete frame. -/
theorem receiveGood_effect {i : Instr} (h : receives i = true) (s : State) (layer : List Byte → State → State)
    (good : s.rxPull.complete = true → goodFrame s.rxPull.rxbuf = true →
      ExecEffect s i (layer (frameBody s.rxPull.rxbuf) s.rxPull.rxTake)) :
    ExecEffect s i (s.receiveGood layer) := by
  rcases receiveGood_cases s layer with ⟨hc, e⟩ | ⟨hc, hg, e⟩ | ⟨hc, hg, e⟩ <;> rw [e]
  · exact .noFrame h hc
  · exact .badFcs h hc hg
  · exact good hc hg

section Layers

variable {s : State} (hc : s.rxPull.complete = true) (hg : goodFrame s.rxPull.rxbuf = true)
include hc hg

theorem deliverAddressed_effect (cap : Byte) (promisc : Bool) :
    ExecEffect s (.rxRecvfrom cap promisc) (deliverAddressed cap promisc (frameBody s.rxPull.rxbuf) s.rxPull.rxTake) := by
  unfold deliverAddressed
  split
  next dest src inner hb =>
    split_ifs
    · exact .addressedFrame cap promisc dest src inner hc hg hb
    · exact .undelivered rfl hc hg _ _ (by simp [producedBy]) (by decide)
  next => exact .undelivered rfl hc hg _ _ (by simp [producedBy]) (by decide)

theorem deliverReliable_effect (cap : Byte) :
    ExecEffect s (.rxRecvrel cap) (deliverReliable cap (frameBody s.rxPull.rxbuf) s.rxPull.rxTake) := by
  unfold deliverReliable State.deliverNew
  split
  next dest src flag inner hb =>
    split_ifs
    · exact .undelivered rfl hc hg _ _ (by simp [producedBy]) (by decide)
    · exact .duplicate cap dest src (seqField flag) hc hg
    · exact .newMessage cap dest src flag inner hc hg hb
    · exact .undelivered rfl hc hg _ _ (by simp [producedBy]) (by decide)
  next => exact .undelivered rfl hc hg _ _ (by simp [producedBy]) (by decide)

theorem awaitAck_effect (dest seq : Byte) :
    ExecEffect s (.rxRecvack dest seq) (awaitAck dest (seqField seq) (frameBody s.rxPull.rxbuf) s.rxPull.rxTake) := by
  unfold awaitAck
  split
  next =>
    split_ifs
    · exact .undelivered rfl hc hg _ _ (by simp [producedBy]) (by decide)
    · exact .undelivered rfl hc hg _ _ (by simp [producedBy]) (by decide)
    · exact .undelivered rfl hc hg _ _ (by simp [producedBy]) (by decide)
  next => exact .undelivered rfl hc hg _ _ (by simp [producedBy]) (by decide)

end Layers

/-- Every command answers a next state, by one of the effects. -/
theorem exec_next_effect (i : Instr) (s : State) : ∃ t, exec i s = .next t ∧ ExecEffect s i t := by
  cases i with
  | nop => exact ⟨_, rfl, .read rfl _ _ (by simp [producedBy])⟩
  | crcInit => exact ⟨_, rfl, .crcInit⟩
  | crcUpd byte => exact ⟨_, rfl, .crcUpd byte⟩
  | crcRdfcs => exact ⟨_, rfl, .read rfl _ _ (by simp [producedBy])⟩
  | crcRdraw => exact ⟨_, rfl, .read rfl _ _ (by simp [producedBy])⟩
  | crcChk => exact ⟨_, rfl, .read rfl _ _ (by simp [producedBy])⟩
  | txbWr idx byte =>
    refine ⟨_, rfl, ?_⟩
    split_ifs with h
    · exact .txbWr idx byte h
    · exact .range (by simp [producedBy])
  | txSend len => exact ⟨_, rfl, transmit_effect rfl ..⟩
  | txSendto len dest => exact ⟨_, rfl, transmit_effect rfl ..⟩
  | txSendseq len dest flag => exact ⟨_, rfl, transmit_effect rfl ..⟩
  | rxAvail => exact ⟨_, rfl, .rxAvail⟩
  | rxRecv cap =>
    refine ⟨_, rfl, ?_⟩
    split_ifs with hc
    · exact .baseFrame cap hc
    · exact .noFrame rfl (by simpa using hc)
  | rxRecvfrom cap promisc =>
    exact ⟨_, rfl, receiveGood_effect rfl s _ fun hc hg => deliverAddressed_effect hc hg cap promisc⟩
  | rxRecvrel cap => exact ⟨_, rfl, receiveGood_effect rfl s _ fun hc hg => deliverReliable_effect hc hg cap⟩
  | rxRecvack dest seq => exact ⟨_, rfl, receiveGood_effect rfl s _ fun hc hg => awaitAck_effect hc hg dest seq⟩
  | outRd idx =>
    refine ⟨_, rfl, ?_⟩
    split
    · exact .read rfl _ _ (by simp [producedBy])
    · exact .read rfl _ _ (by simp [producedBy])
  | outHdr => exact ⟨_, rfl, .read rfl _ _ (by simp [producedBy])⟩
  | seqNext => exact ⟨_, rfl, .seqNext⟩
  | seqRd => exact ⟨_, rfl, .read rfl _ _ (by simp [producedBy])⟩
  | lsRd addr => exact ⟨_, rfl, .read rfl _ _ (by simp [producedBy])⟩
  | cfgSetaddr addr =>
    refine ⟨_, rfl, ?_⟩
    split_ifs with h
    · exact .range (by simp [producedBy])
    · exact .cfgSetaddr addr h
  | cfgRdaddr => exact ⟨_, rfl, .read rfl _ _ (by simp [producedBy])⟩
  | cntRdbad => exact ⟨_, rfl, .read rfl _ _ (by simp [producedBy])⟩
  | cntRdgood => exact ⟨_, rfl, .read rfl _ _ (by simp [producedBy])⟩
  | fltRd => exact ⟨_, rfl, .read rfl _ _ (by simp [producedBy])⟩

/-- What a command answers is one of its effects. -/
theorem exec_effect {i : Instr} {s t : State} (h : exec i s = .next t) : ExecEffect s i t := by
  obtain ⟨u, hu, effect⟩ := exec_next_effect i s
  obtain rfl : u = t := Host.Outcome.next.inj (hu.symm.trans h)
  exact effect

/-- RX.RECV's delivery in the named updates, whose fields the state's laws give (R127). -/
@[simp] theorem State.deliverBase_eq (s : State) (cap : Byte) : s.deliverBase cap =
    (s.rxTake.setOutput (truncateTo cap (frameBody s.bufferedFrame))).respond
      (if goodFrame s.bufferedFrame then .ok else .badFcs)
      (countData (truncateTo cap (frameBody s.bufferedFrame)).length) := rfl

/-! ### Who writes each element -/

section Writers

variable {i : Instr} {s t : State}

theorem ExecEffect.localAddr_writer (h : ExecEffect s i t) : t.localAddr = s.localAddr ∨ ∃ a, i = .cfgSetaddr a := by
  cases h with
  | cfgSetaddr addr _ => exact .inr ⟨addr, rfl⟩
  | _ => exact .inl (by simp)

theorem ExecEffect.seq_writer (h : ExecEffect s i t) : t.seq = s.seq ∨ i = .seqNext := by
  cases h with
  | seqNext => exact .inr rfl
  | _ => exact .inl (by simp)

theorem ExecEffect.lastseen_writer (h : ExecEffect s i t) :
    t.lastseen = s.lastseen ∨ (∃ cap, i = .rxRecvrel cap) ∧ t.status = .ok := by
  cases h with
  | newMessage cap => exact .inr ⟨⟨cap, rfl⟩, rfl⟩
  | _ => exact .inl (by simp)

theorem ExecEffect.faultFlag_writer (h : ExecEffect s i t) :
    t.faultFlag = s.faultFlag ∨ transmits i = true ∧ t.status = .faultUnwritten ∧ t.faultFlag = true := by
  cases h with
  | unwritten h => exact .inr ⟨h, rfl, rfl⟩
  | _ => exact .inl (by simp)

theorem ExecEffect.header_writer (h : ExecEffect s i t) :
    (t.outfrom = s.outfrom ∧ t.outto = s.outto) ∨
      ((∃ cap p, i = .rxRecvfrom cap p) ∨ ∃ cap, i = .rxRecvrel cap) ∧ t.status = .ok := by
  cases h with
  | addressedFrame cap promisc => exact .inr ⟨.inl ⟨cap, promisc, rfl⟩, rfl⟩
  | newMessage cap => exact .inr ⟨.inr ⟨cap, rfl⟩, rfl⟩
  | _ => exact .inl (by simp)

/-- Only a command that pulls bytes writes BADCNT, RXBUF or RXQ (R124). -/
theorem ExecEffect.pull_writer (h : ExecEffect s i t) :
    (t.badcnt = s.badcnt ∧ t.rxbuf = s.rxbuf ∧ t.rxq = s.rxq) ∨ receives i = true ∨ i = .rxAvail := by
  cases h with
  | rxAvail => exact .inr (.inr rfl)
  | noFrame h => exact .inr (.inl h)
  | baseFrame => exact .inr (.inl rfl)
  | badFcs h => exact .inr (.inl h)
  | undelivered h => exact .inr (.inl h)
  | addressedFrame => exact .inr (.inl rfl)
  | duplicate => exact .inr (.inl rfl)
  | newMessage => exact .inr (.inl rfl)
  | _ => exact .inl (by simp)

/-- GOODCNT counts only where a good frame was consumed (R29, R125). -/
theorem ExecEffect.goodcnt_writer (h : ExecEffect s i t) :
    t.goodcnt = s.goodcnt ∨ receives i = true ∧ t.status ≠ .noFrame ∧ t.status ≠ .badFcs := by
  cases h with
  | baseFrame cap hc =>
    cases hg : goodFrame s.rxPull.bufferedFrame with
    | false => exact .inl (by simp [hg])
    | true => exact .inr ⟨rfl, by simp [hg]⟩
  | badFcs h hc hg => exact .inl (by simp [bufferedFrame_of_complete hc, hg])
  | undelivered h _ _ _ _ _ hgood => exact .inr ⟨h, hgood⟩
  | addressedFrame => exact .inr ⟨rfl, by simp⟩
  | duplicate => exact .inr ⟨rfl, by simp⟩
  | newMessage => exact .inr ⟨rfl, by simp⟩
  | _ => exact .inl (by simp)

theorem ExecEffect.crc_writer (h : ExecEffect s i t) :
    t.crc = s.crc ∨ i = .crcInit ∨ (∃ b, i = .crcUpd b) ∨ transmits i = true ∨ receives i = true := by
  cases h with
  | crcInit => exact .inr (.inl rfl)
  | crcUpd byte => exact .inr (.inr (.inl ⟨byte, rfl⟩))
  | sent h => exact .inr (.inr (.inr (.inl h)))
  | baseFrame => exact .inr (.inr (.inr (.inr rfl)))
  | badFcs h => exact .inr (.inr (.inr (.inr h)))
  | undelivered h => exact .inr (.inr (.inr (.inr h)))
  | addressedFrame => exact .inr (.inr (.inr (.inr rfl)))
  | duplicate => exact .inr (.inr (.inr (.inr rfl)))
  | newMessage => exact .inr (.inr (.inr (.inr rfl)))
  | _ => exact .inl (by simp)

theorem ExecEffect.txbuf_writer (h : ExecEffect s i t) : t.txbuf = s.txbuf ∨ ∃ a b, i = .txbWr a b := by
  cases h with
  | txbWr idx byte _ => exact .inr ⟨idx, byte, rfl⟩
  | _ => exact .inl (by simp)

theorem ExecEffect.outbuf_writer (h : ExecEffect s i t) :
    t.outbuf = s.outbuf ∨ ((∃ cap, i = .rxRecv cap) ∧ (t.status = .ok ∨ t.status = .badFcs)) ∨
      (((∃ cap p, i = .rxRecvfrom cap p) ∨ ∃ cap, i = .rxRecvrel cap) ∧ t.status = .ok) := by
  cases h with
  | baseFrame cap =>
    refine .inr (.inl ⟨⟨cap, rfl⟩, ?_⟩)
    cases hg : goodFrame s.rxPull.bufferedFrame with
    | false => exact .inr (by simp [hg])
    | true => exact .inl (by simp [hg])
  | addressedFrame cap promisc => exact .inr (.inr ⟨.inl ⟨cap, promisc, rfl⟩, rfl⟩)
  | newMessage cap => exact .inr (.inr ⟨.inr ⟨cap, rfl⟩, rfl⟩)
  | _ => exact .inl (by simp)

theorem ExecEffect.txs_writer (h : ExecEffect s i t) :
    t.txs = s.txs ∨ transmits i = true ∨ ∃ cap, i = .rxRecvrel cap := by
  cases h with
  | sent h => exact .inr (.inl h)
  | duplicate cap => exact .inr (.inr ⟨cap, rfl⟩)
  | newMessage cap => exact .inr (.inr ⟨cap, rfl⟩)
  | _ => exact .inl (by simp)

/-- No effect reaches the parameters, the host, the command port or the agenda (R22, R23). -/
theorem ExecEffect.surroundings_kept (h : ExecEffect s i t) :
    t.params = s.params ∧ t.cmd = s.cmd ∧ t.task = s.task ∧ t.result = s.result ∧ t.clock = s.clock ∧
      t.agenda = s.agenda := by
  cases h <;> simp

end Writers

/-- Settles O36: every effect of a command is built from operations that leave these fields alone. -/
theorem commandsLeaveHostAndParametersAlone : Obligations.CommandsLeaveHostAndParametersAlone :=
  fun _ _ _ h => (exec_effect h).surroundings_kept

/-- Settles O37, register by register, from the effects that write it. -/
theorem registersHaveOnlyTheirWriters : Obligations.RegistersHaveOnlyTheirWriters := by
  intro i s t h
  have effect := exec_effect h
  refine ⟨effect.localAddr_writer.resolve_left, effect.seq_writer.resolve_left, effect.lastseen_writer.resolve_left,
    effect.faultFlag_writer.resolve_left, fun changed => ?_, fun changed => ?_, effect.goodcnt_writer.resolve_left,
    effect.crc_writer.resolve_left⟩
  · exact effect.header_writer.resolve_left fun ⟨hfrom, hto⟩ => changed.elim (· hfrom) (· hto)
  · exact effect.pull_writer.resolve_left fun ⟨hbad, _, _⟩ => changed hbad

/-- Settles O38, buffer by buffer, from the effects that write it. -/
theorem buffersHaveOnlyTheirWriters : Obligations.BuffersHaveOnlyTheirWriters := by
  intro i s t h
  have effect := exec_effect h
  refine ⟨effect.txbuf_writer.resolve_left, effect.outbuf_writer.resolve_left, fun changed => ?_,
    effect.txs_writer.resolve_left⟩
  exact effect.pull_writer.resolve_left fun ⟨_, hbuf, hq⟩ => changed.elim (· hbuf) (· hq)

/-! ### What host and environment can do -/

/-- `t` differs from `s` at most in what stands around the block: port, transport, host, clock and agenda (R22, R40). -/
def OnlyAround (s t : State) : Prop :=
  ∃ q o c k r n a, t = { s with rxq := q, txs := o, cmd := c, task := k, result := r, clock := n, agenda := a }

theorem OnlyAround.update (s : State) (q o : List Byte) (c : Option Word) (k : HostTask) (r : Option HostResult) (n : Nat)
    (a : List Event) :
    OnlyAround s { s with rxq := q, txs := o, cmd := c, task := k, result := r, clock := n, agenda := a } :=
  ⟨q, o, c, k, r, n, a, rfl⟩

theorem OnlyAround.refl (s : State) : OnlyAround s s := .update ..

theorem OnlyAround.issue (s : State) (i : Instr) (k : HostTask) : OnlyAround s (s.issue i k) := .update ..

theorem OnlyAround.finish (s : State) (r : HostResult) : OnlyAround s (s.finish r) := .update ..

theorem OnlyAround.trans {s t u : State} (h : OnlyAround s t) (k : OnlyAround t u) : OnlyAround s u := by
  obtain ⟨_, _, _, _, _, _, _, rfl⟩ := h
  obtain ⟨_, _, _, _, _, _, _, rfl⟩ := k
  exact .update ..

theorem OnlyAround.faultFlag {s t : State} (h : OnlyAround s t) : t.faultFlag = s.faultFlag := by
  obtain ⟨_, _, _, _, _, _, _, rfl⟩ := h
  rfl

theorem hostLoad_onlyAround (s : State) (what : HostSend) (p : List Byte) (n : Nat) :
    OnlyAround s (s.hostLoad what p n) := by
  unfold State.hostLoad
  split
  · exact .issue ..
  · cases what with
    | base => exact .issue ..
    | addressed d => exact .issue ..
    | reliable job => exact .update ..

theorem hostAttempt_onlyAround (s : State) (job : WaitJob) (k : Nat) : OnlyAround s (s.hostAttempt job k) := by
  unfold State.hostAttempt
  split_ifs
  · exact .issue ..
  · exact .finish ..

theorem hostPoll_onlyAround (s : State) (job : WaitJob) (k t0 : Nat) : OnlyAround s (s.hostPoll job k t0) := by
  unfold State.hostPoll
  split_ifs
  · exact .issue ..
  · exact .update ..

theorem hostRead_onlyAround (s : State) (good report : Bool) (total : Nat) (bytes : List Byte) :
    OnlyAround s (s.hostRead good report total bytes) := by
  unfold State.hostRead
  split_ifs
  · exact .issue ..
  · exact .issue ..
  · exact .finish ..

theorem hostReceived_onlyAround (s : State) (what : HostReceive) : OnlyAround s (s.hostReceived what) := by
  unfold State.hostReceived
  split
  · exact hostRead_onlyAround ..
  · exact .finish ..
  · cases what with
    | base cap => exact hostRead_onlyAround ..
    | addressed cap promisc report => exact .issue ..
    | reliable cap => exact .issue ..

theorem hostStart_onlyAround (s : State) (c : HostCall) : OnlyAround s (s.hostStart c) := by
  cases c with
  | send p =>
    simp only [State.hostStart]
    split_ifs
    · exact .finish ..
    · exact hostLoad_onlyAround ..
  | sendTo d p =>
    simp only [State.hostStart]
    split_ifs
    · exact .finish ..
    · exact hostLoad_onlyAround ..
  | recv cap => exact .issue ..
  | recvFrom cap promisc => exact .issue ..
  | recvAddressed cap => exact .issue ..
  | sendToWait d p t r =>
    simp only [State.hostStart]
    split_ifs
    · exact .finish ..
    · exact .issue ..
  | recvFromAck cap => exact .issue ..
  | waitAvailable => exact .update ..

theorem hostTurn_onlyAround (s : State) : OnlyAround s s.hostTurn := by
  cases htask : s.task <;> simp only [State.hostTurn, htask]
  case idle => exact .refl s
  case seqNext => exact hostLoad_onlyAround ..
  case load => exact hostLoad_onlyAround ..
  case sent => exact .finish ..
  case attempt => exact hostAttempt_onlyAround ..
  case transmitted =>
    split_ifs
    · exact .finish ..
    · exact hostPoll_onlyAround ..
  case polled =>
    split_ifs
    · exact .finish ..
    · exact hostPoll_onlyAround ..
  case receiving => exact hostReceived_onlyAround ..
  case reading => exact hostRead_onlyAround ..
  case header => exact .finish ..
  case waiting =>
    split_ifs
    · exact .refl s
    · exact .finish ..

/-- Every event but the power-on stays around the block (R22, R240). -/
theorem happen_onlyAround (s : State) {e : Event} (h : e ≠ .powerOn) : OnlyAround s (s.happen e) := by
  cases e with
  | command w => exact .update ..
  | call c => exact OnlyAround.trans (t := { s with result := none }) (.update ..) (hostStart_onlyAround _ c)
  | host => exact hostTurn_onlyAround s
  | arrive bytes => exact .update ..
  | consume n => exact .update ..
  | tick ms => exact .update ..
  | powerOn => exact absurd rfl h

/-- A move between two commands stays around the block, or it is the agenda's power-on (R22, R240). -/
theorem agentsMove_cases (s : State) :
    OnlyAround s s.agentsMove ∨
      ∃ rest, s.agenda = .powerOn :: rest ∧ s.agentsMove = State.powerOn { s with agenda := rest } := by
  unfold State.agentsMove
  split
  next => exact .inl (hostTurn_onlyAround s)
  next e rest ha =>
    split_ifs
    · exact .inl (hostTurn_onlyAround s)
    · by_cases he : e = .powerOn
      · subst he; exact .inr ⟨rest, ha, rfl⟩
      · exact .inl (OnlyAround.trans (t := { s with agenda := rest }) (.update ..) (happen_onlyAround _ he))

/-- Everything a step can do: a command's effect, the answer to an illegal word, a move around the block, or the power-on
(R22, R54, R80). -/
theorem step_cases {s t : State} (h : step s = .next t) :
    (∃ i, ExecEffect s.takeCommand i t) ∨ t = s.takeCommand.respondIllegal ∨ OnlyAround s t ∨
      (s.cmd = none ∧ ∃ rest, s.agenda = .powerOn :: rest ∧ t = State.powerOn { s with agenda := rest }) := by
  rcases Option.eq_none_or_eq_some s.cmd with hcmd | ⟨w, hcmd⟩ <;> simp only [step, hcmd] at h
  · obtain rfl : s.agentsMove = t := Host.Outcome.next.inj h
    rcases agentsMove_cases s with around | ⟨rest, ha, e⟩
    · exact .inr (.inr (.inl around))
    · exact .inr (.inr (.inr ⟨hcmd, rest, ha, e⟩))
  · unfold State.execWord at h
    split at h
    next i _ => exact .inl ⟨i, exec_effect h⟩
    next => exact .inr (.inl (Host.Outcome.next.inj h).symm)

/-- Settles O47: a command writes FAULT only by setting it, and what host and environment do stays around the block. -/
theorem faultIsSticky : Obligations.FaultIsSticky := by
  intro s t h faulted notPowerOn
  rcases step_cases h with ⟨i, effect⟩ | rfl | around | ⟨hcmd, rest, ha, -⟩
  · rcases effect.faultFlag_writer with kept | ⟨_, _, raised⟩
    · exact kept.trans faulted
    · exact raised
  · exact faulted
  · exact around.faultFlag.trans faulted
  · exact absurd ⟨hcmd, rest, ha⟩ notPowerOn

/-! ### The invariants of R43 under the shared operations -/

/-- The fields that the invariants speak of. -/
def State.invView (s : State) : Params × List Byte × Half × Half × Memory × List Byte × Byte :=
  (s.params, s.rxbuf, s.badcnt, s.goodcnt, s.txbuf, s.outbuf, s.localAddr)

/-- The invariants depend on those fields only. -/
theorem State.Inv.of_invView_eq {s t : State} (h : s.Inv) (e : t.invView = s.invView) : t.Inv := by
  cases s
  cases t
  simp only [State.invView, Prod.mk.injEq] at e
  obtain ⟨rfl, rfl, rfl, rfl, rfl, rfl, rfl⟩ := e
  exact ⟨h.params_legal, h.rxcount_le, h.rx_window, h.outlen_le, h.local_ne, h.txbuf_wf, h.txbuf_range, h.badcnt_lt,
    h.goodcnt_lt⟩

namespace State.Inv

variable {s : State} (h : s.Inv)
include h

theorem respond (st : Status) (d : Half) : (s.respond st d).Inv := h.of_invView_eq rfl

theorem takeCommand : s.takeCommand.Inv := h.of_invView_eq rfl

theorem emitFrame (body : List Byte) : (s.emitFrame body).Inv := h.of_invView_eq rfl

theorem acknowledge (dest src : Byte) (q : BitVec 7) : (s.acknowledge dest src q).Inv :=
  h.of_invView_eq (by simp [State.invView])

theorem setLastSeen (a : Byte) (q : BitVec 7) : (s.setLastSeen a q).Inv := h.of_invView_eq rfl

theorem setOutputHeader (dest src : Byte) : (s.setOutputHeader dest src).Inv := h.of_invView_eq rfl

theorem onlyAround {t : State} (k : OnlyAround s t) : t.Inv := by
  obtain ⟨_, _, _, _, _, _, _, rfl⟩ := k
  exact h.of_invView_eq rfl

theorem txBufWrite {i : Nat} (hi : i < s.params.maxPayload) (v : Byte) : (s.txBufWrite i v).Inv where
  __ := h
  txbuf_wf := Memory.wf_write h.txbuf_wf i v
  txbuf_range c hc := by
    rcases Memory.mem_write hc with rfl | hc
    · exact hi
    · exact h.txbuf_range c hc

theorem setLocalAddr {addr : Byte} (ha : addr ≠ broadcast) : State.Inv { s with localAddr := addr } where
  __ := h
  local_ne := ha

theorem setOutput {bytes : List Byte} (hb : bytes.length ≤ s.params.maxPayload) : (s.setOutput bytes).Inv where
  __ := h
  outlen_le := hb

theorem rxReject : s.rxReject.Inv where
  __ := h
  badcnt_lt := bump_lt ..

theorem rxTake : s.rxTake.Inv where
  __ := h
  rxcount_le := Nat.zero_le _
  rx_window _ _ e := nomatch e
  goodcnt_lt := by
    rw [State.rxTake_goodcnt]
    split_ifs
    · exact bump_lt ..
    · exact h.goodcnt_lt

/-- An incomplete buffer has room for the next byte: as a first byte it must be plausible, and after one the count stands
below LEN (R27, R124, R130). -/
theorem rxPush {v : Byte} (hc : s.complete = false) (hp : s.rxbuf ≠ [] ∨ plausible s.params v = true) :
    (s.rxPush v).Inv := by
  obtain ⟨legal, count, window, outlen, addr, wf, range, bad, good⟩ := h
  cases hb : s.rxbuf with
  | nil =>
    obtain ⟨hmin, hmax⟩ := (plausible_iff _ _).1 (hp.resolve_left (fun hne => hne hb))
    refine ⟨legal, ?_, ?_, outlen, addr, wf, range, bad, good⟩
    · simp [State.rxcount, hb]; omega
    · rintro len rest e
      obtain ⟨rfl, -⟩ : v = len ∧ [] = rest := by simpa [hb] using e
      exact ⟨hmin, hmax, by simp [State.rxcount, hb]; omega⟩
  | cons first tail =>
    obtain ⟨hmin, hmax, hle⟩ := window first tail hb
    have hne : (first :: tail).length ≠ first.toNat := by simpa [complete_cons hb] using hc
    have hlt : (s.rxPush v).rxcount ≤ first.toNat := by
      simp [State.rxcount, hb] at hle hne ⊢
      omega
    refine ⟨legal, hlt.trans hmax, ?_, outlen, addr, wf, range, bad, good⟩
    rintro len rest e
    obtain ⟨rfl, -⟩ : first = len ∧ tail ++ [v] = rest := by simpa [hb] using e
    exact ⟨hmin, hmax, hlt⟩

end State.Inv

@[simp] theorem rxPopTo_complete (s : State) (q : List Byte) : (s.rxPopTo q).complete = s.complete := rfl

theorem rxPullLoop_inv (q : List Byte) : ∀ {s : State}, s.Inv → (State.rxPullLoop q s).Inv := by
  induction q with
  | nil => exact fun h => h
  | cons v q ih =>
    intro s h
    have popped : (s.rxPopTo q).Inv := h.of_invView_eq rfl
    simp only [State.rxPullLoop]
    split_ifs with hc hempty hp
    · exact h
    · exact ih (popped.rxPush (by simpa using hc) (.inr hp))
    · exact popped.rxReject
    · exact ih (popped.rxPush (by simpa using hc) (.inl (by simpa [State.rxcount] using hempty)))

theorem State.Inv.rxPull {s : State} (h : s.Inv) : s.rxPull.Inv := rxPullLoop_inv s.rxq h

/-- What is delivered of a buffered frame's body, behind the layer's header, fits OUTBUF (R8, R32, R125). -/
theorem State.Inv.delivery_fits {s : State} (h : s.Inv) {header inner : List Byte}
    (hb : frameBody s.rxbuf = header ++ inner) (cap : Byte) : (truncateTo cap inner).length ≤ s.params.maxPayload := by
  have count : s.rxbuf.length ≤ s.params.maxFrameLen := h.rxcount_le
  have body : s.rxbuf.length - 2 - 1 = header.length + inner.length := by
    simpa [frameBody] using congrArg List.length hb
  simp only [truncateTo, List.length_take, Params.maxPayload]
  omega

/-- Every effect of a command keeps the invariants: only the writes of TXBUF, LOCAL, RXBUF, OUTBUF and the counters touch
them. -/
theorem ExecEffect.inv {i : Instr} {s t : State} (effect : ExecEffect s i t) (h : s.Inv) : t.Inv := by
  have taken := h.rxPull.rxTake
  cases effect with
  | read _ _ _ _ => exact h.respond ..
  | range _ => exact h.respond ..
  | crcInit => exact h.of_invView_eq rfl
  | crcUpd byte => exact h.of_invView_eq rfl
  | txbWr idx byte hi => exact (h.txBufWrite hi byte).respond ..
  | cfgSetaddr addr ha => exact (h.setLocalAddr ha).respond ..
  | seqNext => exact h.of_invView_eq rfl
  | oversize _ => exact h.respond ..
  | unwritten _ => exact h.of_invView_eq rfl
  | sent _ body => exact (h.emitFrame body).respond ..
  | rxAvail => exact h.rxPull.respond ..
  | noFrame _ _ => exact h.rxPull.respond ..
  | baseFrame cap hc =>
    have fits := h.rxPull.delivery_fits (header := []) (inner := frameBody s.rxPull.rxbuf) rfl cap
    exact (taken.setOutput (by simpa [bufferedFrame_of_complete hc] using fits)).respond ..
  | badFcs _ _ _ => exact taken.respond ..
  | undelivered _ _ _ _ _ _ _ => exact taken.respond ..
  | addressedFrame cap promisc dest src inner hc hg hb =>
    have fits := h.rxPull.delivery_fits (header := [dest, src]) hb cap
    exact ((taken.setOutput (by simpa using fits)).setOutputHeader dest src).respond ..
  | duplicate cap dest src q _ _ => exact (taken.acknowledge dest src q).respond ..
  | newMessage cap dest src flag inner hc hg hb =>
    have fits := h.rxPull.delivery_fits (header := [dest, src, flag]) hb cap
    exact ((((taken.acknowledge ..).setLastSeen ..).setOutput (by simpa using fits)).setOutputHeader ..).respond ..

/-- The node at power-on has the invariants, whatever legal parameters it has (R240). -/
theorem fresh_inv {p : Params} (legal : p.Legal) : (State.fresh p).Inv where
  params_legal := legal
  rxcount_le := Nat.zero_le _
  rx_window _ _ e := nomatch e
  outlen_le := Nat.zero_le _
  local_ne := (by decide : localAddrDefault ≠ broadcast)
  txbuf_wf := List.Pairwise.nil
  txbuf_range _ hc := nomatch hc
  badcnt_lt := Nat.two_pow_pos _
  goodcnt_lt := Nat.two_pow_pos _

theorem State.Inv.powerOn {s : State} (h : s.Inv) : s.powerOn.Inv := (fresh_inv h.params_legal).of_invView_eq rfl

/-- Settles O44: each thing a step can do keeps the invariants. -/
theorem stepKeepsTheInvariant : Obligations.StepKeepsTheInvariant := by
  intro s t h hstep
  rcases step_cases hstep with ⟨i, effect⟩ | rfl | around | ⟨_, rest, _, rfl⟩
  · exact effect.inv h.takeCommand
  · exact h.takeCommand.respond ..
  · exact h.onlyAround around
  · exact State.Inv.powerOn (h.of_invView_eq rfl)

/-- Settles O43: reset is the power-on state at the default parameters, which are legal, and its host is idle. -/
theorem resetSatisfiesTheInvariant : Obligations.ResetSatisfiesTheInvariant :=
  ⟨fresh_inv (by decide), trivial, fun _ legal => fresh_inv legal⟩

/-! ### Moves of the environment, and the loopback -/

/-- With no command presented, a step takes the agenda's first event where it is no request or the host is idle (R22). -/
theorem step_of_agenda {s : State} {e : Event} {rest : List Event} (hcmd : s.cmd = none) (ha : s.agenda = e :: rest)
    (free : e.needsIdleHost = false ∨ s.task = .idle) : step s = .next (State.happen { s with agenda := rest } e) := by
  rcases free with he | ht
  · simp [step, hcmd, State.agentsMove, ha, he]
  · simp [step, hcmd, State.agentsMove, ha, ht]

/-- Settles O49: each of these events is the agenda's first, and takes place. -/
theorem environmentMoves : Obligations.EnvironmentMoves := fun _ _ hcmd =>
  ⟨fun _ ha => step_of_agenda hcmd ha (.inl rfl), fun _ ha => step_of_agenda hcmd ha (.inl rfl),
    fun _ ha => step_of_agenda hcmd ha (.inl rfl), fun _ ht ha => step_of_agenda hcmd ha (.inr ht)⟩

/-- The loopback's step of a node that answers a next state. -/
theorem linkStep_eq {k : Nat} {nodes : List State} {n n' : State} (hn : nodes[k]? = some n) (hs : step n = .next n') :
    linkStep k nodes = linkDeliver k n'.txs (nodes.set k n') := by
  simp [linkStep, hn, hs]

/-- What the loopback leaves at place `j`: the sender drained of the bytes, every other node with them at RXQ's tail
(R231). -/
theorem linkDeliver_getElem? (k j : Nat) (bytes : List Byte) (nodes : List State) :
    (linkDeliver k bytes nodes)[j]? =
      nodes[j]?.map fun n => if j = k then n.consume bytes.length else n.arrive bytes := by
  simp [linkDeliver]

/-- Settles O54: the sender's whole TXS is what is delivered, so its own TXS ends empty. -/
theorem loopbackDeliversToEveryOtherNode : Obligations.LoopbackDeliversToEveryOtherNode := by
  intro k nodes n n' hn hs
  have hk : k < nodes.length := (List.getElem?_eq_some_iff.1 hn).1
  rw [linkStep_eq hn hs]
  refine ⟨?_, by simp [linkDeliver], fun j m hj hm => ?_⟩
  · simp [linkDeliver_getElem?, hk, State.consume]
  · simp [linkDeliver_getElem?, hj, hj.symm, hm, State.arrive]

end Sys2Proof.Machine
end

section
/-! PROOFS. The memory family (20_memory.md): the order of the transport's bytes, the idempotent commands, and the step that
runs a presented word. -/

namespace Sys2Proof.Machine

/-! ### The order of the transport (R56, R57, R60) -/

theorem emitFrame_txs_prefix (s : State) (body : List Byte) : s.txs <+: (s.emitFrame body).txs :=
  List.prefix_append ..

theorem acknowledge_txs_prefix (s : State) (dest src : Byte) (q : BitVec 7) :
    s.txs <+: (s.acknowledge dest src q).txs := by
  rcases acknowledge_cases s dest src q with ⟨_, h⟩ | ⟨_, h⟩
  · rw [h]
  · rw [h]
    exact emitFrame_txs_prefix ..

/-- A command leaves RXQ alone, or leaves of it what rx_pull does (R56). -/
theorem ExecEffect.rxq_cases {i : Instr} {s t : State} (h : ExecEffect s i t) :
    t.rxq = s.rxq ∨ t.rxq = s.rxPull.rxq := by
  cases h with
  | rxAvail | noFrame | baseFrame | badFcs | undelivered | addressedFrame | duplicate | newMessage =>
    exact .inr (by simp)
  | _ => exact .inl (by simp)

theorem ExecEffect.rxq_suffix {i : Instr} {s t : State} (h : ExecEffect s i t) : t.rxq <:+ s.rxq := by
  rcases h.rxq_cases with e | e <;> rw [e]
  exact rxPull_suffix s

/-- A command keeps what stands in TXS, at its head (R57). -/
theorem ExecEffect.txs_prefix {i : Instr} {s t : State} (h : ExecEffect s i t) : s.txs <+: t.txs := by
  cases h with
  | sent _ body => exact emitFrame_txs_prefix s body
  | duplicate | newMessage => simpa using acknowledge_txs_prefix s.rxPull.rxTake _ _ _
  | _ => simp

/-- Settles O39: RXQ ends as a suffix and TXS begins as a prefix, whatever the effect. -/
theorem transportOrderIsKept : Obligations.TransportOrderIsKept := by
  intro i s t h
  obtain ⟨taken, hrxq⟩ := (exec_effect h).rxq_suffix
  obtain ⟨sent, htxs⟩ := (exec_effect h).txs_prefix
  exact ⟨⟨taken, hrxq.symm⟩, sent, htxs.symm⟩

/-! ### The idempotent commands (R63) -/

/-- A read command's answer does not depend on the response that stands before it (R63). -/
theorem exec_respond_of_read {i : Instr} (h : onlyReads i = true) (s : State) (st : Status) (d : Half) :
    exec i (s.respond st d) = exec i s := by
  cases i with
  | nop | crcRdfcs | crcRdraw | crcChk | outRd | outHdr | seqRd | lsRd | cfgRdaddr | cntRdbad | cntRdgood | fltRd => rfl
  | _ => cases h

/-- A read command only responds (R63). -/
theorem exec_of_read {i : Instr} (h : onlyReads i = true) (s : State) : ∃ st d, exec i s = .next (s.respond st d) := by
  cases i with
  | outRd idx =>
    simp only [exec, execOutRd]
    split
    · exact ⟨_, _, rfl⟩
    · exact ⟨_, _, rfl⟩
  | nop | crcRdfcs | crcRdraw | crcChk | outHdr | seqRd | lsRd | cfgRdaddr | cntRdbad | cntRdgood | fltRd =>
    exact ⟨_, _, rfl⟩
  | _ => cases h

/-- Writing the same byte to the same cell twice is writing it once, whatever the list (R51). -/
@[simp] theorem Memory.write_write_same (m : Memory) (i : Nat) (v : Byte) : (m.write i v).write i v = m.write i v := by
  induction m with
  | nil => simp [Memory.write]
  | cons c m ih =>
    obtain ⟨a, b⟩ := c
    simp only [Memory.write]
    split_ifs with hlt heq
    · simp [Memory.write]
    · simp [Memory.write]
    · simp [Memory.write, hlt, heq, ih]

/-- TXB.WR with the same operands answers the same state again, inside its range and outside (R63, R121). -/
theorem exec_txbWr_again (idx byte : Byte) {s t : State} (h : exec (.txbWr idx byte) s = .next t) :
    exec (.txbWr idx byte) t = .next t := by
  simp only [exec, execTxbWr, Host.Outcome.next.injEq] at h ⊢
  split_ifs at h with hidx <;> subst h
  · simp [hidx, State.txBufWrite, State.respond]
  · simp [hidx, State.respond]

/-- Settles O40: a read command only responds, and answers the same whatever response stands before it; TXB.WR repeats its
write. -/
theorem readCommandsAreIdempotent : Obligations.ReadCommandsAreIdempotent := by
  refine ⟨fun i s h => ?_, fun _ _ _ _ => exec_txbWr_again _ _⟩
  obtain ⟨st, d, answer⟩ := exec_of_read h s
  exact ⟨st, d, answer, (exec_respond_of_read h s st d).trans answer⟩

/-! ### A presented word (R54, R75) -/

theorem step_of_cmd {s : State} {w : Word} (h : s.cmd = some w) : step s = s.takeCommand.execWord w := by
  simp [step, h]

theorem execWord_of_decode {w : Word} {i : Instr} (h : decode w = .command i) (s : State) : s.execWord w = exec i s := by
  simp [State.execWord, h]

/-- Settles O7: with a word presented, step takes the branch that decodes and executes it, and no move of host or environment
is in that branch. -/
theorem stepRunsTheDecodedCommand : Obligations.StepRunsTheDecodedCommand := fun _ _ hcmd =>
  ⟨step_of_cmd hcmd, fun _ hdec => (step_of_cmd hcmd).trans (execWord_of_decode hdec _)⟩

end Sys2Proof.Machine
end

section
/-! PROOFS. The encoding family (30_encoding.md): which words a row of the opcode map matches, said once by (op, fn) and
the reserved-zero bits, and from it the two round trips, the map row by row and the reserved encodings; then what the
pseudo-instructions leave. -/

namespace Sys2Proof.Machine

/-! ### A row's (op, fn) pair (R75) -/

theorem mask_covers_opFn : ∀ r ∈ opcodeTable, r.mask.extractLsb' 24 8 = 0xFF#8 := by decide

theorem row_opFn_nodup : (opcodeTable.map (fun r => r.pattern.extractLsb' 24 8)).Nodup := by decide

theorem row_mnemonic_nodup : (opcodeTable.map OpRow.mnemonic).Nodup := by decide

/-- A row matches only words with its own op and fn. -/
theorem opFn_eq_of_rowMatches {w : Word} {r : OpRow} (hr : r ∈ opcodeTable) (h : rowMatches w r = true) :
    r.pattern.extractLsb' 24 8 = w.extractLsb' 24 8 := by
  have hand : w &&& r.mask = r.pattern := by simpa [rowMatches] using h
  rw [← hand, BitVec.extractLsb'_and, mask_covers_opFn r hr]
  exact BitVec.and_allOnes

/-- At most one row matches a word. -/
theorem row_unique {w : Word} {r r' : OpRow} (hr : r ∈ opcodeTable) (hr' : r' ∈ opcodeTable)
    (h : rowMatches w r = true) (h' : rowMatches w r' = true) : r = r' :=
  List.inj_on_of_nodup_map row_opFn_nodup hr hr'
    ((opFn_eq_of_rowMatches hr h).trans (opFn_eq_of_rowMatches hr' h').symm)

/-- Bits 31:24 of a word are its op and fn (R70). -/
theorem opFn_eq_append (w : Word) : w.extractLsb' 24 8 = (fields w).op ++ (fields w).fn :=
  (BitVec.extractLsb'_append_extractLsb'_eq_extractLsb' (len₁ := 4) (len₂ := 4) rfl).symm

/-- A word with a row's (op, fn) pair has the row's op and fn, and operand bytes of its own. -/
theorem fields_of_opFn_eq {w : Word} {r : OpRow} (h : r.pattern.extractLsb' 24 8 = w.extractLsb' 24 8) :
    ∃ a b c, fields w = ⟨(fields r.pattern).op, (fields r.pattern).fn, a, b, c⟩ := by
  rw [opFn_eq_append, opFn_eq_append] at h
  have hop : (fields r.pattern).op = (fields w).op := by
    simpa only [BitVec.extractLsb'_append_eq_left] using congrArg (BitVec.extractLsb' 4 4) h
  have hfn : (fields r.pattern).fn = (fields w).fn := by
    simpa only [BitVec.extractLsb'_append_eq_right] using congrArg (BitVec.extractLsb' 0 4) h
  exact ⟨_, _, _, by rw [hop, hfn]⟩

/-- The (op, fn) pairs that R76 lists are those of no row. -/
theorem unassignedOpcode_iff (w : Word) : UnassignedOpcode (fields w) ↔
    ∀ r ∈ opcodeTable, r.pattern.extractLsb' 24 8 ≠ w.extractLsb' 24 8 := by
  rw [opFn_eq_append, UnassignedOpcode]
  generalize (fields w).op = op, (fields w).fn = fn
  revert op fn
  decide +kernel

/-! ### A row's operands and reserved-zero bits (R72, R73) -/

theorem and_ff (b : Byte) : b &&& 0xFF#8 = b := BitVec.and_allOnes

theorem and_fe_eq_zero_iff : ∀ b : Byte, b &&& 0xFE#8 = 0#8 ↔ b.toNat < 2 := by decide

theorem and_80_eq_zero_iff : ∀ c : Byte, c &&& 0x80#8 = 0#8 ↔ c.toNat < 128 := by decide

theorem bit_zero_of_bool : ∀ v : Bool, (if v = true then 1#8 else 0#8)[0] = v := by decide

theorem byte_of_bit_zero : ∀ b : Byte, b.toNat ≤ 1 → (if b[0] = true then 1#8 else 0#8) = b := by decide

section Row

variable {w : Word} {r : OpRow} (hr : r ∈ opcodeTable) (hw : r.pattern.extractLsb' 24 8 = w.extractLsb' 24 8)
include hr hw

/-- On the words with the row's op and fn, the mask tests exactly the reserved-zero bits. -/
theorem rowMatches_iff_of_opFn_eq : rowMatches w r = true ↔ ¬ ReservedBitSet (fields w) := by
  obtain ⟨a, b, c, hf⟩ := fields_of_opFn_eq hw
  rw [rowMatches_iff, hf]
  clear hf hw
  -- row by row, the mask's fields and the row's clause of `ReservedBitSet` compute
  fin_cases hr <;> simp [fields, ReservedBitSet, and_ff, and_fe_eq_zero_iff, and_80_eq_zero_iff]

/-- With the reserved-zero bits clear, the row's command is well-formed, and its word is the word it was read from. -/
theorem encode_rowCommand (h : ¬ ReservedBitSet (fields w)) :
    (r.command (fields w)).WellFormed ∧ encode (r.command (fields w)) = w := by
  obtain ⟨a, b, c, hf⟩ := fields_of_opFn_eq hw
  have hpack := pack_fields w
  rw [hf] at h hpack ⊢
  rw [← hpack]
  clear hf hw hpack
  -- row by row, the clear bits are exactly the operand bits that the command does not carry
  fin_cases hr <;> simp_all [fields, ReservedBitSet, encode, Instr.WellFormed, Instr.wellFormed, byte_of_bit_zero]

end Row

/-- A word that a row matches is the word of the row's command, which is well-formed. -/
theorem encode_of_rowMatches {w : Word} {r : OpRow} (hr : r ∈ opcodeTable) (h : rowMatches w r = true) :
    (r.command (fields w)).WellFormed ∧ encode (r.command (fields w)) = w := by
  have hw := opFn_eq_of_rowMatches hr h
  exact encode_rowCommand hr hw ((rowMatches_iff_of_opFn_eq hr hw).1 h)

/-! ### Decoding (R75) -/

/-- Everything decoding can answer: the command of a row that matches, or ILLEGAL where none does. -/
theorem decode_cases (w : Word) :
    (∃ r ∈ opcodeTable, rowMatches w r = true ∧ decode w = .command (r.command (fields w))) ∨
    ((∀ r ∈ opcodeTable, rowMatches w r = false) ∧ decode w = .illegal (illegalKind w)) := by
  cases hfind : opcodeTable.find? (rowMatches w) with
  | some r =>
    exact .inl ⟨r, List.mem_of_find?_eq_some hfind, List.find?_some hfind, by simp [decode, hfind]⟩
  | none => exact .inr ⟨by simpa using hfind, by simp [decode, hfind]⟩

/-- Settles O4: `decode_cases`, and the rows' (op, fn) pairs. -/
theorem decodeSelectsTheOneMatchingRow : Obligations.DecodeSelectsTheOneMatchingRow := by
  refine ⟨fun w => ⟨?_, fun r hr r' hr' => row_unique hr hr'⟩, mask_covers_opFn, row_opFn_nodup⟩
  rcases decode_cases w with matched | ⟨unmatched, answer⟩
  · exact .inl matched
  · exact .inr ⟨unmatched, _, answer⟩

theorem decode_of_rowMatches {w : Word} {r : OpRow} (hr : r ∈ opcodeTable) (h : rowMatches w r = true) :
    decode w = .command (r.command (fields w)) := by
  rcases decode_cases w with ⟨r', hr', h', answer⟩ | ⟨unmatched, _⟩
  · rw [answer, row_unique hr hr' h h']
  · simp [unmatched r hr] at h

/-- Settles O2: a word that decodes is matched by a row, and the row keeps every bit of it. -/
theorem encodeInvertsDecode : Obligations.EncodeInvertsDecode := by
  intro w i hdec
  rcases decode_cases w with ⟨r, hr, h, answer⟩ | ⟨_, answer⟩
  · obtain rfl : r.command (fields w) = i := by simpa [answer] using hdec
    exact encode_of_rowMatches hr h
  · simp [answer] at hdec

/-- The row with a command's mnemonic matches its word; where it also reads the command back from the word's fields, decoding
answers that command. -/
theorem decode_encode_of_row {i : Instr} (row : Laws.EncodingMatchesRow.Statement i) (n : Nat) {r : OpRow}
    (at_n : opcodeTable[n]? = some r) (name : r.mnemonic = mnemonicOf i) (back : r.command (fields (encode i)) = i)
    (wf : i.WellFormed) : decode (encode i) = .command i := by
  obtain ⟨r', hr', name', h⟩ := row wf
  obtain rfl : r' = r :=
    List.inj_on_of_nodup_map row_mnemonic_nodup hr' (List.mem_of_getElem? at_n) (name'.trans name.symm)
  rw [decode_of_rowMatches hr' h, back]

open Laws in
/-- Settles O1, by the command's row. -/
theorem decodeInvertsEncode : Obligations.DecodeInvertsEncode := by
  intro i wf
  cases i with
  | nop => exact decode_encode_of_row EncodingMatchesRow.nop 0 rfl rfl rfl wf
  | crcInit => exact decode_encode_of_row EncodingMatchesRow.crcInit 1 rfl rfl rfl wf
  | crcUpd byte => exact decode_encode_of_row (EncodingMatchesRow.crcUpd byte) 2 rfl rfl (by simp [encode]) wf
  | crcRdfcs => exact decode_encode_of_row EncodingMatchesRow.crcRdfcs 3 rfl rfl rfl wf
  | crcRdraw => exact decode_encode_of_row EncodingMatchesRow.crcRdraw 4 rfl rfl rfl wf
  | crcChk => exact decode_encode_of_row EncodingMatchesRow.crcChk 5 rfl rfl rfl wf
  | txbWr idx byte => exact decode_encode_of_row (EncodingMatchesRow.txbWr idx byte) 6 rfl rfl (by simp [encode]) wf
  | txSend len => exact decode_encode_of_row (EncodingMatchesRow.txSend len) 7 rfl rfl (by simp [encode]) wf
  | txSendto len dest =>
    exact decode_encode_of_row (EncodingMatchesRow.txSendto len dest) 8 rfl rfl (by simp [encode]) wf
  | txSendseq len dest flag =>
    exact decode_encode_of_row (EncodingMatchesRow.txSendseq len dest flag) 9 rfl rfl (by simp [encode]) wf
  | rxAvail => exact decode_encode_of_row EncodingMatchesRow.rxAvail 10 rfl rfl rfl wf
  | rxRecv cap => exact decode_encode_of_row (EncodingMatchesRow.rxRecv cap) 11 rfl rfl (by simp [encode]) wf
  | rxRecvfrom cap promisc =>
    exact decode_encode_of_row (EncodingMatchesRow.rxRecvfrom cap promisc) 12 rfl rfl
      (by simp [encode, bit_zero_of_bool]) wf
  | rxRecvrel cap => exact decode_encode_of_row (EncodingMatchesRow.rxRecvrel cap) 13 rfl rfl (by simp [encode]) wf
  | rxRecvack dest seq =>
    exact decode_encode_of_row (EncodingMatchesRow.rxRecvack dest seq) 14 rfl rfl (by simp [encode]) wf
  | outRd idx => exact decode_encode_of_row (EncodingMatchesRow.outRd idx) 15 rfl rfl (by simp [encode]) wf
  | outHdr => exact decode_encode_of_row EncodingMatchesRow.outHdr 16 rfl rfl rfl wf
  | seqNext => exact decode_encode_of_row EncodingMatchesRow.seqNext 17 rfl rfl rfl wf
  | seqRd => exact decode_encode_of_row EncodingMatchesRow.seqRd 18 rfl rfl rfl wf
  | lsRd addr => exact decode_encode_of_row (EncodingMatchesRow.lsRd addr) 19 rfl rfl (by simp [encode]) wf
  | cfgSetaddr addr =>
    exact decode_encode_of_row (EncodingMatchesRow.cfgSetaddr addr) 20 rfl rfl (by simp [encode]) wf
  | cfgRdaddr => exact decode_encode_of_row EncodingMatchesRow.cfgRdaddr 21 rfl rfl rfl wf
  | cntRdbad => exact decode_encode_of_row EncodingMatchesRow.cntRdbad 22 rfl rfl rfl wf
  | cntRdgood => exact decode_encode_of_row EncodingMatchesRow.cntRdgood 23 rfl rfl rfl wf
  | fltRd => exact decode_encode_of_row EncodingMatchesRow.fltRd 24 rfl rfl rfl wf

/-- The two round trips together: which words decode to a command. -/
theorem decode_eq_command_iff (w : Word) (i : Instr) : decode w = .command i ↔ i.WellFormed ∧ w = encode i := by
  constructor
  · intro h
    obtain ⟨wf, word⟩ := encodeInvertsDecode w i h
    exact ⟨wf, word.symm⟩
  · rintro ⟨wf, rfl⟩
    exact decodeInvertsEncode i wf

/-- Settles O3: the right-hand sides are the commands' words, and RX.RECVACK's extra condition is its well-formedness. -/
theorem everyRowDecodes : Obligations.EveryRowDecodes := by
  intro w x y z p
  simp [decode_eq_command_iff, encode, Instr.WellFormed, Instr.wellFormed]

/-! ### The reserved encodings (R76, R80) -/

theorem illegalKind_eq_unassigned_iff (w : Word) :
    illegalKind w = .unassignedOpcode ↔ UnassignedOpcode (fields w) := by
  rw [unassignedOpcode_iff, illegalKind]
  simp

theorem illegalKind_eq_reserved_iff (w : Word) : illegalKind w = .reservedBitSet ↔ ¬ UnassignedOpcode (fields w) := by
  rw [← illegalKind_eq_unassigned_iff]
  cases illegalKind w <;> simp

/-- No row matches exactly where the (op, fn) pair is unassigned or a reserved-zero bit is set. -/
theorem no_rowMatches_iff (w : Word) : (∀ r ∈ opcodeTable, rowMatches w r = false) ↔
    UnassignedOpcode (fields w) ∨ ReservedBitSet (fields w) := by
  rw [unassignedOpcode_iff]
  constructor
  · intro unmatched
    by_contra! assigned_clear
    obtain ⟨⟨r, hr, hw⟩, clear⟩ := assigned_clear
    simpa [unmatched r hr] using (rowMatches_iff_of_opFn_eq hr hw).2 clear
  · intro reserved r hr
    by_contra h
    have matched : rowMatches w r = true := by simpa using h
    have hw := opFn_eq_of_rowMatches hr matched
    exact reserved.elim (fun unassigned => unassigned r hr hw) ((rowMatches_iff_of_opFn_eq hr hw).1 matched)

/-- Which words are ILLEGAL, and under which name. -/
theorem decode_eq_illegal_iff (w : Word) (k : Illegal) : decode w = .illegal k ↔
    illegalKind w = k ∧ (UnassignedOpcode (fields w) ∨ ReservedBitSet (fields w)) := by
  rw [← no_rowMatches_iff]
  rcases decode_cases w with ⟨r, hr, matched, answer⟩ | ⟨unmatched, answer⟩
  · have : ¬ ∀ r ∈ opcodeTable, rowMatches w r = false := fun unmatched => by simp [unmatched r hr] at matched
    simp only [answer, this, and_false, reduceCtorEq]
  · simp only [answer, Decoded.illegal.injEq, iff_self_and]
    exact fun _ => unmatched

/-- Settles O5: the kind is unassignedOpcode exactly where no row has the word's (op, fn) pair. -/
theorem illegalExactlyTheReservedEncodings : Obligations.IllegalExactlyTheReservedEncodings := by
  intro w
  rw [decode_eq_illegal_iff, decode_eq_illegal_iff, illegalKind_eq_unassigned_iff, illegalKind_eq_reserved_iff]
  exact ⟨and_iff_left_of_imp .inl, and_congr_right fun assigned => or_iff_right assigned⟩

/-- Settles O6: eight closed words, by evaluation of the map. -/
theorem exampleWordsDecode : Obligations.ExampleWordsDecode := by
  unfold Obligations.ExampleWordsDecode
  decide

theorem execWord_of_illegal {w : Word} {k : Illegal} (h : decode w = .illegal k) (s : State) :
    s.execWord w = .next s.respondIllegal := by
  simp [State.execWord, h]

/-- Settles O8: `respondIllegal` writes STATUS and DATA only. -/
theorem illegalWordOnlyResponds : Obligations.IllegalWordOnlyResponds :=
  fun s _ _ h => execWord_of_illegal h s

/-! ### The pseudo-instructions (R83) -/

theorem execAll_cons {i : Instr} {s t : State} (h : exec i s = .next t) (is : List Instr) :
    execAll (i :: is) s = execAll is t := by
  simp [execAll, h]

theorem exec_txbWr_of_lt {idx : Byte} (byte : Byte) {s : State} (h : idx.toNat < s.params.maxPayload) :
    exec (.txbWr idx byte) s = .next ((s.txBufWrite idx.toNat byte).respond .ok 0#16) := by
  simp [exec, execTxbWr, h]

/-- `t` is `s` after the bytes `p` were written to the cells from `i` on. -/
structure LoadedFrom (i : Nat) (p : List Byte) (s t : State) : Prop where
  inside : ∀ k, k < p.length → t.txBufRead (i + k) = p[k]?
  outside : ∀ j, j < i ∨ i + p.length ≤ j → t.txBufRead j = s.txBufRead j
  txs : t.txs = s.txs
  crc : t.crc = s.crc

/-- The TXB.WR commands for cells within MAX_PAYLOAD load their bytes, and every cell index fits its operand. -/
theorem execAll_loadFrom (p : List Byte) : ∀ (i : Nat) (s : State), s.params.Legal →
    i + p.length ≤ s.params.maxPayload → ∃ t, execAll (loadFrom i p) s = .next t ∧ LoadedFrom i p s t := by
  induction p with
  | nil => exact fun i s _ _ => ⟨s, rfl, by simp, fun _ _ => rfl, rfl, rfl⟩
  | cons b p ih =>
    intro i s legal fits
    rw [List.length_cons] at fits
    have small : i < 256 := by
      have := legal.2.1
      unfold Params.maxPayload at fits
      omega
    have index : (BitVec.ofNat 8 i).toNat = i := by simpa using small
    have write := exec_txbWr_of_lt b (idx := BitVec.ofNat 8 i) (s := s) (by omega)
    rw [index] at write
    obtain ⟨t, run, inside, outside, txs, crc⟩ :=
      ih (i + 1) ((s.txBufWrite i b).respond .ok 0#16) legal (by simp; omega)
    refine ⟨t, (execAll_cons write _).trans run, ?_, ?_, txs, crc⟩
    · intro k hk
      cases k with
      | zero => simpa [State.txBufRead] using outside i (by omega)
      | succ k => simpa [Nat.add_assoc, Nat.add_comm 1 k] using inside k (by simpa using hk)
    · intro j hj
      rw [List.length_cons] at hj
      rw [outside j (by omega)]
      exact Memory.read_write_other s.txbuf b (by omega)

/-- CRC.UPD over a sequence folds it into CRC (R102, R105) and leaves the transmit side alone. -/
theorem execAll_crcUpd (p : List Byte) : ∀ s : State, ∃ t, execAll (p.map .crcUpd) s = .next t ∧
    t.crc = crcOverFrom s.crc p ∧ t.txbuf = s.txbuf ∧ t.txs = s.txs := by
  induction p with
  | nil => exact fun s => ⟨s, rfl, rfl, rfl, rfl⟩
  | cons b p ih =>
    intro s
    exact ih (State.respond { s with crc := crcUpdate s.crc b } .ok (crcUpdate s.crc b))

/-- Settles O55: TXB.LOAD starts at cell 0, and CRC.OVER folds its bytes into CRC.INIT's value. -/
theorem pseudoInstructionEffects : Obligations.PseudoInstructionEffects := by
  constructor
  · intro s p legal fits
    obtain ⟨t, run, loaded⟩ := execAll_loadFrom p 0 s legal (by omega)
    exact ⟨t, run, fun k hk => by simpa using loaded.inside k hk, loaded.txs, loaded.crc,
      fun j hj => loaded.outside j (by omega)⟩
  · intro s p
    exact execAll_crcUpd p (State.respond { s with crc := crcInit } .ok 0#16)

end Sys2Proof.Machine
end

section
/-! PROOFS. The CRC unit's family (40_crc.md): the byte-at-a-time form, the residue law, and the five commands' results. Both
laws start from `crcUpdate_split`: the update moves CRC's high half down and adds what its low half and the byte make. -/

namespace Sys2Proof.Machine

/-! ### The byte-at-a-time form (R109) -/

/-- What the low half and the byte make, in R109's words: eight rounds on a byte alone. -/
theorem crcShifts_low (e : Byte) : crcShifts 8 (e.zeroExtend 16) =
    (e ^^^ (e <<< 4)).zeroExtend 16 <<< 8 ^^^ ((e ^^^ (e <<< 4)) >>> 4).zeroExtend 16 ^^^
      (e ^^^ (e <<< 4)).zeroExtend 16 <<< 3 := by
  revert e; decide +kernel

/-- R109's `|` joins two halves that share no bit. -/
theorem shifted_or_eq_xor (d h : Byte) :
    d.zeroExtend 16 <<< 8 ||| h.zeroExtend 16 = h.zeroExtend 16 ^^^ d.zeroExtend 16 <<< 8 := by
  ext i hi
  by_cases low : i < 8
  · simp [low]
  · simp [low, BitVec.getElem_setWidth, BitVec.getLsbD_of_ge h i (Nat.le_of_not_lt low)]

/-- Settles O9: the byte form is `crcUpdate_split` with its two parts written out. -/
theorem crcByteFormAgrees : Obligations.CrcByteFormAgrees := by
  intro c b
  rw [crcUpdate_split, crcShifts_low, crcUpdateByteForm, shifted_or_eq_xor]
  simp only [BitVec.xor_assoc]

/-! ### The residue law (R103) -/

/-- Either byte of a complement is the complement of that byte. -/
theorem extractLsb'_not {i : Nat} (c : Half) (h : i + 8 ≤ 16) : (~~~c).extractLsb' i 8 = ~~~(c.extractLsb' i 8) := by
  ext j hj
  simp [show i + j < 16 by omega]

/-- FCS_LO cancels CRC's low half: what is left of it does not depend on CRC. -/
theorem crcUpdate_fcsLow (c : Half) : crcUpdate c ((~~~c).extractLsb' 0 8) =
    (c.extractLsb' 8 8).zeroExtend 16 ^^^ crcShifts 8 0x00FF#16 := by
  have cancel : (~~~c).extractLsb' 0 8 ^^^ c.extractLsb' 0 8 = 0xFF#8 := by
    rw [extractLsb'_not c (by decide), ← BitVec.not_xor_left, BitVec.xor_self]
    rfl
  rw [crcUpdate_split, cancel]
  rfl

/-- A byte's complement cancels that byte where it stands in CRC's low half. -/
theorem crcUpdate_not (h : Byte) (k : Half) :
    crcUpdate (h.zeroExtend 16 ^^^ k) (~~~h) = crcShifts 8 (k ^^^ 0x00FF#16) := by
  have cancel : h.zeroExtend 16 ^^^ (~~~h).zeroExtend 16 = 0x00FF#16 := by
    rw [← BitVec.setWidth_xor, ← BitVec.not_xor_right, BitVec.xor_self]
    rfl
  rw [crcUpdate_eq_shifts, BitVec.xor_comm (h.zeroExtend 16), BitVec.xor_assoc, cancel]

/-- The two bytes of CRC's own FCS take CRC to the good residue, whatever it was. -/
theorem crcOverFrom_fcsBytes (c : Half) : crcOverFrom c (fcsBytes c) = goodResidue :=
  calc crcOverFrom c (fcsBytes c)
    _ = crcUpdate (crcUpdate c ((~~~c).extractLsb' 0 8)) ((~~~c).extractLsb' 8 8) := rfl
    _ = crcShifts 8 (crcShifts 8 0x00FF#16 ^^^ 0x00FF#16) := by
      rw [crcUpdate_fcsLow, extractLsb'_not c (by decide), crcUpdate_not]
    _ = goodResidue := by decide +kernel

theorem goodFrame_iff (f : List Byte) : goodFrame f = true ↔ crcOver f = goodResidue := beq_iff_eq

/-- Settles O10: the frame's form and its validity are definitions, and `crcOverFrom_fcsBytes` is the law. -/
theorem residueLaw : Obligations.ResidueLaw :=
  ⟨fun _ => rfl, goodFrame_iff, fun p => (crcOver_append p _).trans (crcOverFrom_fcsBytes (crcOver p))⟩

/-! ### The commands (R104 to R108) -/

/-- Settles O11: the new CRC is written and answered; the corner values and two bytes that do not commute are evaluated. -/
theorem crcInitAndUpdateResults : Obligations.CrcInitAndUpdateResults := by
  have no_commute : crcUpdate (crcUpdate 0#16 0x01#8) 0x00#8 ≠ crcUpdate (crcUpdate 0#16 0x00#8) 0x01#8 := by
    decide +kernel
  exact ⟨fun _ => rfl, fun _ _ => rfl, by decide +kernel, by decide +kernel, by decide +kernel, _, _, _, no_commute⟩

theorem verdictData_beq (c r : Half) : verdictData (c == r) = if c = r then 1#16 else 0#16 := by
  simp [verdictData]

/-- Settles O12: the three commands only respond, and CRC.CHK's verdict is a test for the good residue. -/
theorem crcReadResults : Obligations.CrcReadResults := by
  intro s
  have verdict : exec .crcChk s = .next (s.respond .ok (if s.crc = goodResidue then 1#16 else 0#16)) := by
    rw [← verdictData_beq]
    rfl
  exact ⟨rfl, rfl, rfl, verdict⟩

end Sys2Proof.Machine
end

section
/-! PROOFS. The framer's family (41_framer.md): what a transmit emits and that it validates, what the availability check does
with the bytes it meets, what rx_take and RX.RECV make of a complete frame, where CRC is left, and the base layer's round
trip. -/

namespace Sys2Proof.Machine

/-! ### Values of the response -/

theorem zext16_eq_ofNat (b : Byte) : zext16 b = BitVec.ofNat 16 b.toNat := (BitVec.ofNat_toNat 16 b).symm

theorem length_truncateTo (cap : Byte) (bytes : List Byte) : (truncateTo cap bytes).length = min cap.toNat bytes.length :=
  List.length_take

/-! ### Frames (R58, R103, R122) -/

@[simp] theorem length_frameOf (body : List Byte) : (frameOf body).length = body.length + 3 := by
  simp [frameOf, frameHead, fcsBytes]

theorem lenByte_toNat {body : List Byte} (fits : body.length + 3 < 256) : (lenByte body).toNat = body.length + 3 :=
  (BitVec.toNat_ofNat ..).trans (Nat.mod_eq_of_lt fits)

theorem zext16_lenByte {body : List Byte} (fits : body.length + 3 < 256) :
    zext16 (lenByte body) = BitVec.ofNat 16 (body.length + 3) := by
  rw [zext16_eq_ofNat, lenByte_toNat fits]

/-- An emitted frame is valid: its last two bytes are its own FCS (R103, R122). -/
@[simp] theorem goodFrame_frameOf (body : List Byte) : goodFrame (frameOf body) = true := by
  rw [goodFrame_iff, frameOf, crcOver_append, crcOverFrom_fcsBytes]

@[simp] theorem frameBody_frameOf (body : List Byte) : frameBody (frameOf body) = body := by
  rw [frameBody, length_frameOf]
  simp [frameOf, frameHead]

/-- Settles O15: emit_frame appends `frameOf`, whose two laws stand above. -/
theorem emittedFramesValidate : Obligations.EmittedFramesValidate := fun _ body =>
  ⟨_, rfl, rfl, rfl, goodFrame_frameOf body, frameBody_frameOf body⟩

/-! ### Transmit (R121, R123, R129) -/

theorem exec_txbWr_of_le {idx : Byte} (byte : Byte) {s : State} (h : s.params.maxPayload ≤ idx.toNat) :
    exec (.txbWr idx byte) s = .next (s.respond .range 0#16) := by
  simp [exec, execTxbWr, Nat.not_lt.2 h]

/-- Settles O13: in its range TXB.WR is `Memory.write`, whose laws are the clauses. -/
theorem txbWrWritesOneCell : Obligations.TxbWrWritesOneCell := fun s i b =>
  ⟨fun outside => exec_txbWr_of_le b outside, fun inside => ⟨s.txbuf.write i.toNat b, exec_txbWr_of_lt b inside,
    Memory.read_write_same .., fun _ other => Memory.read_write_other _ b other, fun wf => Memory.wf_write wf ..⟩⟩

theorem txGather_eq_none_iff (s : State) (len : Nat) :
    s.txGather len = none ↔ ∃ i, i < len ∧ s.txBufRead i = none := by
  simpa [State.txGather, State.txBufRead] using s.txbuf.readRange_eq_none_iff len 0

theorem txGather_eq_some_iff (s : State) (len : Nat) (p : List Byte) :
    s.txGather len = some p ↔ p.length = len ∧ s.Holds p := by
  refine (s.txbuf.readRange_eq_some_iff len 0 p).trans (and_congr_right ?_)
  rintro rfl
  simp [State.Holds, State.txBufRead]

/-- Settles O14: tx_gather reads the range of cells from 0. -/
theorem gatherReadsExactlyWrittenCells : Obligations.GatherReadsExactlyWrittenCells := fun s len =>
  ⟨txGather_eq_none_iff s len, txGather_eq_some_iff s len⟩

section Transmit

variable {s : State} {limit : Nat} {len : Byte} (header : List Byte)

theorem transmit_of_gt (h : limit < len.toNat) : s.transmit limit header len = s.respond .oversize 0#16 :=
  if_pos h

theorem transmit_of_unwritten (h : len.toNat ≤ limit) (unwritten : ∃ i, i < len.toNat ∧ s.txBufRead i = none) :
    s.transmit limit header len = (s.raiseFault .unwritten).respond .faultUnwritten 0#16 := by
  simp [State.transmit, Nat.not_lt.2 h, (txGather_eq_none_iff s _).2 unwritten]

/-- A payload that fits and is held by TXBUF goes out in one frame behind the layer's header (R123, R141, R163). -/
theorem transmit_of_holds {p : List Byte} (h : len.toNat ≤ limit) (hlen : p.length = len.toNat) (holds : s.Holds p) :
    s.transmit limit header len = (s.emitFrame (header ++ p)).respond .ok (zext16 (lenByte (header ++ p))) := by
  simp [State.transmit, Nat.not_lt.2 h, (txGather_eq_some_iff s _ p).2 ⟨hlen, holds⟩]

end Transmit

/-- TX.SEND of a payload that TXBUF holds (R123). -/
theorem exec_txSend_of_holds {s : State} {len : Byte} {p : List Byte} (h : len.toNat ≤ s.params.maxPayload)
    (hlen : p.length = len.toNat) (holds : s.Holds p) :
    exec (.txSend len) s = .next ((s.emitFrame p).respond .ok (zext16 (lenByte p))) :=
  congrArg _ (transmit_of_holds [] h hlen holds)

theorem exec_txSend_zero (s : State) :
    exec (.txSend 0#8) s = .next ((s.emitFrame []).respond .ok (zext16 (lenByte []))) :=
  exec_txSend_of_holds (Nat.zero_le _) rfl fun _ hi => absurd hi (Nat.not_lt_zero _)

/-- The empty payload's frame is 03 E3 C2 (R123). -/
theorem frameOf_nil : frameOf [] = [0x03#8, 0xE3#8, 0xC2#8] := by decide +kernel

/-- Settles O16: the three ends of the transmits' common part, and the empty payload's frame evaluated. -/
theorem txSendResults : Obligations.TxSendResults := by
  intro s legal
  have largest : s.params.maxFrameLen ≤ 255 := legal.2.1
  refine ⟨fun len long => congrArg _ (transmit_of_gt [] long),
    fun len fits unwritten => congrArg _ (transmit_of_unwritten [] fits unwritten), fun len p fits hlen holds => ?_, ?_⟩
  · rw [exec_txSend_of_holds fits hlen holds, zext16_lenByte (by omega)]
    rfl
  · have crc : crcOver (frameHead []) = 0x3D1C#16 := by decide +kernel
    have sent : (s.emitFrame []) = { s with crc := 0x3D1C#16, txs := s.txs ++ [0x03#8, 0xE3#8, 0xC2#8] } := by
      rw [State.emitFrame, crc, frameOf_nil]
      rfl
    rw [exec_txSend_zero, sent]
    rfl

/-! ### The availability check (R124, R130) -/

section Pull

variable {len : Byte} {tail rest : List Byte}

/-- While the bytes up to LEN come in, rx_pull's loop buffers them all: before the last of them the buffer is not complete,
and a first byte among them is a plausible LEN. -/
theorem rxPullLoop_collect (hle : (len :: tail).length ≤ len.toNat) (post : List Byte) : ∀ s : State,
    plausible s.params len = true → s.rxq = post ++ rest → s.rxbuf ++ post = len :: tail →
    State.rxPullLoop (post ++ rest) s = State.rxPullLoop rest { s with rxbuf := len :: tail, rxq := rest } := by
  induction post with
  | nil =>
    intro s _ hq hb
    rw [List.append_nil] at hb
    rw [← hb, ← show s.rxq = rest from hq]
    rfl
  | cons v post ih =>
    intro s hp hq hb
    have step : State.rxPullLoop (v :: (post ++ rest)) s =
        State.rxPullLoop (post ++ rest) ((s.rxPopTo (post ++ rest)).rxPush v) := by
      cases hbuf : s.rxbuf with
      | nil =>
        obtain ⟨rfl, -⟩ : v = len ∧ post = tail := by simpa [hbuf] using hb
        exact rxPullLoop_accept _ (complete_nil hbuf) (.inr hp)
      | cons first more =>
        obtain ⟨rfl, rfl⟩ : first = len ∧ more ++ v :: post = tail := by simpa [hbuf] using hb
        have longer : (first :: more).length < (first :: (more ++ v :: post)).length := by simp
        have incomplete : s.complete = false := by simpa [complete_cons hbuf] using (longer.trans_le hle).ne
        exact rxPullLoop_accept _ incomplete (.inl (by simp [hbuf]))
    exact step.trans (ih _ hp rfl (by simpa using hb))

/-- A frame that RXQ completes is buffered, and RXQ keeps the rest (R124). -/
theorem rxPull_of_frame {s : State} {post : List Byte} (hq : s.rxq = post ++ rest) (hb : s.rxbuf ++ post = len :: tail)
    (hlen : (len :: tail).length = len.toNat) (hp : plausible s.params len = true) :
    s.rxPull = { s with rxbuf := len :: tail, rxq := rest } ∧ s.rxPull.complete = true := by
  have complete : State.complete { s with rxbuf := len :: tail, rxq := rest } = true := by
    rw [complete_cons rfl, hlen]
    simp
  have pull : s.rxPull = { s with rxbuf := len :: tail, rxq := rest } := by
    rw [State.rxPull, hq, rxPullLoop_collect hlen.le post s hp hq hb]
    exact rxPull_of_complete complete
  exact ⟨pull, pull ▸ complete⟩

/-- A partial frame takes all of RXQ (R124). -/
theorem rxPull_of_partial {s : State} (hb : s.rxbuf ++ s.rxq = len :: tail) (hlt : (len :: tail).length < len.toNat)
    (hp : plausible s.params len = true) :
    s.rxPull = { s with rxbuf := len :: tail, rxq := [] } ∧ s.rxPull.complete = false := by
  have pull : s.rxPull = { s with rxbuf := len :: tail, rxq := [] } := by
    have collect := rxPullLoop_collect (rest := []) hlt.le s.rxq s hp (by simp) hb
    rwa [List.append_nil] at collect
  refine ⟨pull, ?_⟩
  rw [pull, complete_cons rfl]
  simpa using hlt.ne

/-- An implausible first byte is counted by BADCNT, and all pending input is discarded (R124, R131). -/
theorem rxPull_of_implausible {s : State} {v : Byte} {q : List Byte} (hb : s.rxbuf = []) (hq : s.rxq = v :: q)
    (hp : plausible s.params v = false) :
    s.rxPull = { s with badcnt := bump s.params.cntW s.badcnt, rxq := [] } ∧ s.rxPull.complete = false := by
  have pull : s.rxPull = (s.rxPopTo q).rxReject := by rw [State.rxPull, hq, rxPullLoop_reject q hb hp]
  exact ⟨pull, by rw [pull]; exact complete_nil hb⟩

end Pull

/-- Settles O19, clause by clause, with the plausibility window of R130. -/
theorem rxPullResults : Obligations.RxPullResults := by
  intro s
  refine ⟨fun len tail post rest hq hb hlen hmin hmax => ?_, fun len tail hb hlt hmin hmax => ?_,
    fun v q hb hq outside => ?_, fun hb hq => ?_⟩
  · exact rxPull_of_frame hq hb hlen ((plausible_iff _ _).2 ⟨hmin, hmax⟩)
  · exact rxPull_of_partial hb hlt ((plausible_iff _ _).2 ⟨hmin, hmax⟩)
  · exact rxPull_of_implausible hb hq (by simpa [← plausible_iff] using outside)
  · have pull : s.rxPull = s := by simp [State.rxPull, hq, State.rxPullLoop]
    exact ⟨pull, by rw [pull, complete_nil hb]⟩

/-- Bytes that begin with a LEN in the window are either a partial frame or a complete one with bytes behind it; the complete
one ends inside RXQ where RXBUF is no longer than LEN. -/
theorem complete_or_partial {buf q bytes : List Byte} {len : Byte} (hb : buf ++ q = len :: bytes)
    (hbuf : buf.length ≤ len.toNat) (hpos : 0 < len.toNat) :
    (∃ tail post rest, q = post ++ rest ∧ buf ++ post = len :: tail ∧ (len :: tail).length = len.toNat) ∨
      (len :: bytes).length < len.toNat := by
  rcases Nat.lt_or_ge (len :: bytes).length len.toNat with short | enough
  · exact .inr short
  · left
    have split : buf ++ q.take (len.toNat - buf.length) = len :: bytes.take (len.toNat - 1) := by
      rw [← List.take_cons hpos, ← hb, List.take_append, List.take_of_length_le hbuf]
    refine ⟨_, _, _, (List.take_append_drop (len.toNat - buf.length) q).symm, split, ?_⟩
    rw [← List.take_cons hpos, List.length_take, Nat.min_eq_left enough]

/-- The first byte of what is buffered and pending: by the invariant it lies in the window where RXBUF holds it, and with
RXBUF empty it is RXQ's, in the window or outside (R43, R130). -/
theorem State.Inv.first_byte_cases {s : State} (inv : s.Inv) :
    (∃ (len : Byte) (bytes : List Byte), s.rxbuf ++ s.rxq = len :: bytes ∧ s.rxbuf.length ≤ len.toNat ∧
      4 ≤ len.toNat ∧ len.toNat ≤ s.params.maxFrameLen) ∨
    (∃ (v : Byte) (q : List Byte), s.rxbuf = [] ∧ s.rxq = v :: q ∧
      ¬ (4 ≤ v.toNat ∧ v.toNat ≤ s.params.maxFrameLen)) ∨
    (s.rxbuf = [] ∧ s.rxq = []) := by
  cases hb : s.rxbuf with
  | cons len bytes =>
    obtain ⟨hmin, hmax, count⟩ := inv.rx_window len bytes hb
    exact .inl ⟨len, bytes ++ s.rxq, rfl, hb ▸ count, hmin, hmax⟩
  | nil =>
    cases hq : s.rxq with
    | nil => exact .inr (.inr ⟨rfl, rfl⟩)
    | cons v q =>
      by_cases window : 4 ≤ v.toNat ∧ v.toNat ≤ s.params.maxFrameLen
      · exact .inl ⟨v, q, rfl, Nat.zero_le _, window⟩
      · exact .inr (.inl ⟨v, q, rfl, rfl, window⟩)

/-- Settles O20: behind a first byte in the window the frame is complete or partial. -/
theorem rxPullCasesAreExhaustive : Obligations.RxPullCasesAreExhaustive := by
  intro s inv
  rcases inv.first_byte_cases with ⟨len, bytes, hb, count, hmin, hmax⟩ | implausible | nothing
  · rcases complete_or_partial hb count (by omega) with ⟨tail, post, rest, hq, hpost, hlen⟩ | short
    · exact .inl ⟨len, tail, post, rest, hq, hpost, hlen, hmin, hmax⟩
    · exact .inr (.inl ⟨len, bytes, hb, short, hmin, hmax⟩)
  · exact .inr (.inr (.inl implausible))
  · exact .inr (.inr (.inr nothing))

/-! ### Consuming a frame (R125 to R128) -/

/-- rx_take of a complete buffer, in the buffer's own bytes (R125). -/
theorem rxTake_of_complete {s : State} (h : s.complete = true) : s.rxTake = { s with
    crc := crcOver s.rxbuf
    goodcnt := if goodFrame s.rxbuf then bump s.params.cntW s.goodcnt else s.goodcnt
    rxbuf := [] } := by
  rw [State.rxTake, bufferedFrame_of_complete h]

theorem frameBody_eq_take (f : List Byte) : frameBody f = (f.drop 1).take (f.length - 3) := by
  rw [frameBody, List.drop_take, Nat.sub_sub]

/-- Settles O21: `rxTake_of_complete` on either side of the good residue. -/
theorem rxTakeResults : Obligations.RxTakeResults := by
  intro s h
  refine ⟨bufferedFrame_of_complete h, frameBody_eq_take _, fun residue => ?_, fun residue => ?_⟩
  · have good : goodFrame s.rxbuf = true := (goodFrame_iff _).2 residue
    refine ⟨good, ?_⟩
    rw [rxTake_of_complete h, good, residue]
    rfl
  · have bad : goodFrame s.rxbuf = false := Bool.eq_false_iff.2 (mt (goodFrame_iff _).1 residue)
    refine ⟨bad, ?_⟩
    rw [rxTake_of_complete h, bad]
    rfl

theorem exec_rxAvail (s : State) :
    exec .rxAvail s = .next (s.rxPull.respond .ok (if s.rxPull.complete then 1#16 else 0#16)) := rfl

/-- Settles O22: a complete buffer pulls nothing. -/
theorem rxAvailResults : Obligations.RxAvailResults := by
  refine fun s => ⟨rfl, fun complete => ?_⟩
  rw [exec_rxAvail, rxPull_of_complete complete, complete]
  rfl

theorem exec_rxRecv_of_incomplete {s : State} (cap : Byte) (h : s.rxPull.complete = false) :
    exec (.rxRecv cap) s = .next (s.rxPull.respond .noFrame 0#16) := by
  simp [exec, execRxRecv, h]

/-- RX.RECV of the complete frame that the pull leaves (R127). -/
theorem exec_rxRecv_of_complete {s : State} (cap : Byte) (h : s.rxPull.complete = true) :
    exec (.rxRecv cap) s = .next ((s.rxPull.rxTake.setOutput (truncateTo cap (frameBody s.rxPull.rxbuf))).respond
      (if goodFrame s.rxPull.rxbuf then .ok else .badFcs)
      (countData (truncateTo cap (frameBody s.rxPull.rxbuf)).length)) := by
  simp [exec, execRxRecv, h, bufferedFrame_of_complete h]

/-- Settles O23: with and without a complete frame after the pull. -/
theorem rxRecvResults : Obligations.RxRecvResults := by
  intro s cap
  refine ⟨exec_rxRecv_of_incomplete cap, fun complete => ?_⟩
  rw [exec_rxRecv_of_complete cap complete, length_truncateTo]
  simp only [goodFrame_iff]
  rfl

/-- Settles O24: below OUTLEN the byte is there, and from OUTLEN on none is. -/
theorem outRdResults : Obligations.OutRdResults := by
  intro s i
  refine ⟨fun inside => ?_, fun outside => ?_⟩
  · have read : s.outBufRead i.toNat = some s.outbuf[i.toNat] := List.getElem?_eq_getElem inside
    simp only [exec, execOutRd, read, zext16_eq_ofNat]
    rfl
  · have read : s.outBufRead i.toNat = none := List.getElem?_eq_none outside
    simp only [exec, execOutRd, read]
    rfl

/-! ### Where CRC is left (R134) -/

/-- The codes that a command answers before it reaches emit_frame or rx_take (R134). -/
@[simp] def Status.endsEarly (st : Status) : Prop :=
  st = .noFrame ∨ st = .oversize ∨ st = .faultUnwritten ∨ st = .range

theorem frameless_of_onlyReads {i : Instr} (h : onlyReads i = true) : transmits i = false ∧ receives i = false := by
  cases i with
  | nop | crcRdfcs | crcRdraw | crcChk | outRd | outHdr | seqRd | lsRd | cfgRdaddr | cntRdbad | cntRdgood | fltRd =>
    exact ⟨rfl, rfl⟩
  | _ => cases h

theorem frameless_of_range {i : Instr} (h : Status.range ∈ producedBy i) :
    transmits i = false ∧ receives i = false := by
  cases i with
  | txbWr | outRd | cfgSetaddr => exact ⟨rfl, rfl⟩
  | _ => simp [producedBy] at h

theorem receives_of_transmits {i : Instr} (h : transmits i = true) : receives i = false := by
  cases i with
  | txSend | txSendto | txSendseq => rfl
  | _ => cases h

theorem transmits_of_receives {i : Instr} (h : receives i = true) : transmits i = false :=
  Bool.eq_false_iff.2 fun hi => by simp [receives_of_transmits hi] at h

/-- A receive ends early with NOFRAME only (R221). -/
theorem noFrame_of_receives {i : Instr} (h : receives i = true) {st : Status} (hst : st ∈ producedBy i)
    (early : st.endsEarly) : st = .noFrame := by
  cases i with
  | rxRecv | rxRecvfrom | rxRecvrel | rxRecvack =>
    rcases early with rfl | rfl | rfl | rfl
    · rfl
    all_goals simp [producedBy] at hst
  | _ => cases h

/-- `t` has one frame more than `s` in TXS, and in CRC that frame's CRC before the complement (R122). -/
def EmittedOne (s t : State) : Prop := ∃ body, t.txs = s.txs ++ frameOf body ∧ t.crc = crcOver (frameHead body)

theorem EmittedOne.txs_ne {s t : State} (h : EmittedOne s t) : t.txs ≠ s.txs := by
  obtain ⟨body, htxs, -⟩ := h
  simp [htxs, ← List.length_eq_zero_iff]

/-- The acknowledgement emits one frame, or nothing for a broadcast (R167, R172). -/
theorem acknowledge_emits (s : State) (dest src : Byte) (q : BitVec 7) :
    s.acknowledge dest src q = s ∨ EmittedOne s (s.acknowledge dest src q) := by
  rcases acknowledge_cases s dest src q with ⟨_, h⟩ | ⟨_, h⟩
  · exact .inl h
  · exact .inr (h ▸ ⟨_, rfl, rfl⟩)

/-- Where a command leaves CRC: one constructor per bullet of R134, and one for CRC.INIT and CRC.UPD, which write CRC without
a frame. -/
inductive CrcLeft (s : State) (i : Instr) (t : State) : Prop where
  /-- A frame was emitted. -/
  | emitted (h : EmittedOne s t) (late : ¬ t.status.endsEarly)
  /-- A frame was consumed and none emitted. -/
  | residue (hi : transmits i = false) (htxs : t.txs = s.txs) (h : t.crc = crcOver s.rxPull.rxbuf)
      (late : ¬ t.status.endsEarly)
  /-- The command neither emitted nor consumed a frame. -/
  | kept (htxs : t.txs = s.txs) (h : t.crc = s.crc) (sends : transmits i = true → t.status ≠ .ok)
      (takes : receives i = true → t.status = .noFrame)
  /-- CRC.INIT and CRC.UPD, which are not frame commands (R104, R105). -/
  | other (hi : transmits i = false ∧ receives i = false) (late : ¬ t.status.endsEarly)

/-- A command that neither transmits nor receives and writes neither CRC nor TXS keeps CRC. -/
theorem CrcLeft.of_frameless {s t : State} {i : Instr} (h : transmits i = false ∧ receives i = false)
    (htxs : t.txs = s.txs) (hcrc : t.crc = s.crc) : CrcLeft s i t :=
  .kept htxs hcrc (by simp [h.1]) (by simp [h.2])

section Consumed

variable {s t : State} {i : Instr} (hi : receives i = true) (hc : s.rxPull.complete = true) (late : ¬ t.status.endsEarly)
include hi hc late

/-- A command that consumes a frame and writes neither CRC nor TXS after that leaves the residue (R125). -/
theorem CrcLeft.of_taken (htxs : t.txs = s.rxPull.rxTake.txs) (hcrc : t.crc = s.rxPull.rxTake.crc) : CrcLeft s i t :=
  .residue (transmits_of_receives hi) (by simp [htxs]) (by simp [hcrc, bufferedFrame_of_complete hc]) late

/-- Behind the acknowledgement CRC is the acknowledgement's, or the residue where none was sent (R167, R172). -/
theorem CrcLeft.of_acknowledged (dest src : Byte) (q : BitVec 7)
    (htxs : t.txs = (s.rxPull.rxTake.acknowledge dest src q).txs)
    (hcrc : t.crc = (s.rxPull.rxTake.acknowledge dest src q).crc) : CrcLeft s i t := by
  rcases acknowledge_emits s.rxPull.rxTake dest src q with silent | ⟨body, sent, crc⟩
  · rw [silent] at htxs hcrc
    exact .of_taken hi hc late htxs hcrc
  · exact .emitted ⟨body, by simp [htxs, sent], hcrc.trans crc⟩ late

end Consumed

theorem ExecEffect.crcLeft {i : Instr} {s t : State} (effect : ExecEffect s i t) : CrcLeft s i t := by
  cases effect with
  | read h => exact .of_frameless (frameless_of_onlyReads h) rfl rfl
  | range h => exact .of_frameless (frameless_of_range h) rfl rfl
  | crcInit => exact .other ⟨rfl, rfl⟩ (by simp)
  | crcUpd => exact .other ⟨rfl, rfl⟩ (by simp)
  | txbWr => exact .of_frameless ⟨rfl, rfl⟩ rfl rfl
  | cfgSetaddr => exact .of_frameless ⟨rfl, rfl⟩ rfl rfl
  | seqNext => exact .of_frameless ⟨rfl, rfl⟩ rfl rfl
  | oversize h => exact .kept rfl rfl (by simp) (by simp [receives_of_transmits h])
  | unwritten h => exact .kept rfl rfl (by simp) (by simp [receives_of_transmits h])
  | sent h body => exact .emitted ⟨body, rfl, rfl⟩ (by simp)
  | rxAvail => exact .of_frameless ⟨rfl, rfl⟩ (by simp) (by simp)
  | noFrame => exact .kept (by simp) (by simp) (by simp) (by simp)
  | baseFrame cap hc =>
    refine .of_taken rfl hc ?_ rfl rfl
    cases hg : goodFrame s.rxPull.bufferedFrame <;> simp [hg]
  | badFcs h hc => exact .of_taken h hc (by simp) rfl rfl
  | undelivered h hc _ _ _ hst hgood =>
    exact .of_taken h hc (fun early => hgood.1 (noFrame_of_receives h hst early)) rfl rfl
  | addressedFrame _ _ _ _ _ hc => exact .of_taken rfl hc (by simp) rfl rfl
  | duplicate _ dest src q hc => exact .of_acknowledged rfl hc (by simp) dest src q rfl rfl
  | newMessage _ dest src flag _ hc =>
    exact .of_acknowledged rfl hc (by simp) dest src (seqField flag) (by simp) (by simp)

/-- Settles O41, by where the command leaves CRC. -/
theorem crcAfterFrameCommands : Obligations.CrcAfterFrameCommands := by
  intro i s t h
  refine ⟨fun hi ok => ?_, fun hi frame htxs => ?_, fun hi htxs => ?_, fun early => ?_,
    fun w k hdec => ⟨_, execWord_of_illegal hdec s, rfl⟩⟩
  · cases (exec_effect h).crcLeft with
    | emitted one => exact one
    | residue hi' => simp [hi'] at hi
    | kept _ _ sends => exact absurd ok (sends hi)
    | other hi' => simp [hi'.1] at hi
  · cases (exec_effect h).crcLeft with
    | emitted one => exact absurd htxs one.txs_ne
    | residue _ _ hcrc => exact hcrc
    | kept _ _ _ takes => exact absurd (takes hi) frame
    | other hi' => simp [hi'.2] at hi
  · cases (exec_effect h).crcLeft with
    | emitted one => exact one
    | residue _ htxs' => exact absurd htxs' htxs
    | kept htxs' => exact absurd htxs' htxs
    | other hi' => simp [hi'.2] at hi
  · cases (exec_effect h).crcLeft with
    | emitted _ late => exact absurd early late
    | residue _ _ _ late => exact absurd early late
    | kept _ hcrc => exact hcrc
    | other _ late => exact absurd early late

/-! ### The base layer end to end (R131, R133) -/

/-- A frame around a body of 1 to MAX_PAYLOAD bytes, pending before an empty buffer, is buffered whole (R124, R130). -/
theorem rxPull_frameOf {s : State} {body rest : List Byte} (legal : s.params.Legal) (hpos : 1 ≤ body.length)
    (hmax : body.length ≤ s.params.maxPayload) (hb : s.rxbuf = []) (hq : s.rxq = frameOf body ++ rest) :
    s.rxPull = { s with rxbuf := frameOf body, rxq := rest } ∧ s.rxPull.complete = true := by
  obtain ⟨hmin, hbyte, -⟩ := legal
  unfold Params.maxPayload at hmax
  have len : (lenByte body).toNat = body.length + 3 := lenByte_toNat (by omega)
  refine rxPull_of_frame hq (by rw [hb]; rfl) ?_ ((plausible_iff _ _).2 ⟨by omega, by omega⟩)
  exact (length_frameOf body).trans len.symm

/-- RX.RECV of such a frame: OK, the body cut to the capacity, GOODCNT counted (R127, R133). -/
theorem exec_rxRecv_frameOf {s : State} {body rest : List Byte} (cap : Byte) (legal : s.params.Legal)
    (hpos : 1 ≤ body.length) (hmax : body.length ≤ s.params.maxPayload) (hb : s.rxbuf = [])
    (hq : s.rxq = frameOf body ++ rest) :
    exec (.rxRecv cap) s = .next (State.respond { s with
      crc := goodResidue, goodcnt := bump s.params.cntW s.goodcnt, rxbuf := [], rxq := rest
      outbuf := truncateTo cap body } .ok (countData (truncateTo cap body).length)) := by
  obtain ⟨pull, complete⟩ := rxPull_frameOf legal hpos hmax hb hq
  have residue : crcOver (frameOf body) = goodResidue := (goodFrame_iff _).1 (goodFrame_frameOf body)
  rw [exec_rxRecv_of_complete cap complete, rxTake_of_complete complete, pull]
  simp only [goodFrame_frameOf, frameBody_frameOf, residue]
  rfl

/-- Settles O50: the sent frame is `frameOf p`, which RX.RECV reads back; the empty payload's LEN is 3, below the window. -/
theorem baseLayerRoundTrip : Obligations.BaseLayerRoundTrip := by
  constructor
  · intro s r len cap p rest legal hparams hpos hmax hlen holds hcap hb hq
    have recv := exec_rxRecv_frameOf (s := { r with rxq := frameOf p ++ rest }) cap (hparams ▸ legal) hpos
      (hparams ▸ hmax) hb rfl
    exact ⟨_, frameOf p, _, exec_txSend_of_holds (hlen ▸ hmax) hlen.symm holds, rfl, recv, rfl,
      List.take_of_length_le hcap, rfl, rfl, rfl⟩
  · intro s r cap hb _
    obtain ⟨pull, incomplete⟩ := rxPull_of_implausible (s := { r with rxq := frameOf [] }) hb frameOf_nil
      (by simp [plausible, minLen])
    refine ⟨_, frameOf [], _, exec_txSend_zero s, rfl, exec_rxRecv_of_incomplete cap incomplete, rfl, ?_⟩
    rw [pull]
    exact ⟨rfl, hb, rfl, rfl⟩

/-- Settles O53: the rejected byte leaves RXBUF and RXQ empty, as a frame's reception wants them. -/
theorem resynchronisationDoesNotStall : Obligations.ResynchronisationDoesNotStall := by
  intro s v cap q p legal hb hq outside hpos hmax
  obtain ⟨pull, incomplete⟩ := rxPull_of_implausible hb hq (by simpa [← plausible_iff] using outside)
  have avail : exec .rxAvail s = .next (State.respond { s with
      badcnt := bump s.params.cntW s.badcnt, rxq := [] } .ok 0#16) := by
    rw [exec_rxAvail, incomplete, pull]
    rfl
  exact ⟨_, _, avail, rfl, rfl, rfl,
    exec_rxRecv_frameOf (rest := []) cap legal hpos hmax hb (List.append_nil _).symm, rfl, rfl⟩

end Sys2Proof.Machine
end

section
/-! PROOFS. The addressed layer's family (42_addressed.md): the three ends of the header-reading receives and what they make of
an emitted frame, the address filter and what RX.RECVFROM does with a body, TX.SENDTO, and the addressed layer's delivery. -/

namespace Sys2Proof.Machine

/-! ### The header-reading receives (R143, R167, R168) -/

section ReceiveGood

variable {s : State} (layer : List Byte → State → State)

theorem receiveGood_of_incomplete (h : s.rxPull.complete = false) :
    s.receiveGood layer = s.rxPull.respond .noFrame 0#16 := by
  simp [State.receiveGood, h]

theorem receiveGood_of_bad (h : s.rxPull.complete = true) (bad : goodFrame s.rxPull.rxbuf = false) :
    s.receiveGood layer = s.rxPull.rxTake.respond .badFcs 0#16 := by
  simp [State.receiveGood, h, bufferedFrame_of_complete h, bad]

theorem receiveGood_of_good (h : s.rxPull.complete = true) (good : goodFrame s.rxPull.rxbuf = true) :
    s.receiveGood layer = layer (frameBody s.rxPull.rxbuf) s.rxPull.rxTake := by
  simp [State.receiveGood, h, bufferedFrame_of_complete h, good]

/-- An emitted frame, pending before an empty buffer, is consumed as a good one, and the layer gets its body (R124, R125). -/
theorem receiveGood_frameOf {body rest : List Byte} (legal : s.params.Legal) (hpos : 1 ≤ body.length)
    (hmax : body.length ≤ s.params.maxPayload) (hb : s.rxbuf = []) (hq : s.rxq = frameOf body ++ rest) :
    s.receiveGood layer = layer body { s with
      crc := goodResidue, goodcnt := bump s.params.cntW s.goodcnt, rxbuf := [], rxq := rest } := by
  obtain ⟨pull, complete⟩ := rxPull_frameOf legal hpos hmax hb hq
  have residue : crcOver (frameOf body) = goodResidue := (goodFrame_iff _).1 (goodFrame_frameOf body)
  rw [receiveGood_of_good layer complete (by simp [pull]), rxTake_of_complete complete, pull]
  simp only [goodFrame_frameOf, frameBody_frameOf, residue, if_true]

end ReceiveGood

/-! ### The address filter and RX.RECVFROM (R142, R143, R145) -/

theorem accept_iff (s : State) (dest : Byte) (promisc : Bool) :
    s.accept dest promisc = true ↔ promisc = true ∨ dest = s.localAddr ∨ dest = 255#8 := by
  simp [State.accept, broadcast, or_assoc]

section DeliverAddressed

variable (cap : Byte) {promisc : Bool} {s : State}

theorem deliverAddressed_of_short {body : List Byte} (h : body.length < 2) :
    deliverAddressed cap promisc body s = s.respond .short 0#16 := by
  match body, h with
  | [], _ => rfl
  | [_], _ => rfl

theorem deliverAddressed_of_filtered {dest : Byte} (src : Byte) (inner : List Byte)
    (h : ¬ (promisc = true ∨ dest = s.localAddr ∨ dest = 255#8)) :
    deliverAddressed cap promisc (dest :: src :: inner) s = s.respond .filtered 0#16 :=
  if_neg (mt (accept_iff s dest promisc).1 h)

theorem deliverAddressed_of_accepted {dest : Byte} (src : Byte) (inner : List Byte)
    (h : promisc = true ∨ dest = s.localAddr ∨ dest = 255#8) :
    deliverAddressed cap promisc (dest :: src :: inner) s =
      ((s.setOutput (truncateTo cap inner)).setOutputHeader dest src).respond .ok
        (countData (truncateTo cap inner).length) :=
  if_pos ((accept_iff s dest promisc).2 h)

end DeliverAddressed

theorem exec_rxRecvfrom (cap : Byte) (promisc : Bool) (s : State) :
    exec (.rxRecvfrom cap promisc) s = .next (s.receiveGood (deliverAddressed cap promisc)) := rfl

/-- Settles O25: the three ends of the receives' common part, and behind the good residue those of the layer; the filter reads
LOCAL, which neither the pull nor rx_take writes. -/
theorem rxRecvfromResults : Obligations.RxRecvfromResults := by
  intro s cap promisc
  have sameLocal : s.rxPull.rxTake.localAddr = s.localAddr := by simp
  simp only [exec_rxRecvfrom, ← sameLocal]
  refine ⟨fun incomplete => ?_, fun complete residue => ?_, fun complete residue =>
    ⟨fun short => ?_, fun dest src inner body => ⟨fun rejected => ?_, fun accepted => ?_⟩⟩⟩
  · rw [receiveGood_of_incomplete _ incomplete]
    rfl
  · rw [receiveGood_of_bad _ complete (Bool.eq_false_iff.2 (mt (goodFrame_iff _).1 residue))]
    rfl
  · rw [receiveGood_of_good _ complete ((goodFrame_iff _).2 residue), deliverAddressed_of_short cap short]
    rfl
  · rw [receiveGood_of_good _ complete ((goodFrame_iff _).2 residue), body,
      deliverAddressed_of_filtered cap src inner rejected]
    rfl
  · rw [receiveGood_of_good _ complete ((goodFrame_iff _).2 residue), body,
      deliverAddressed_of_accepted cap src inner accepted, length_truncateTo]
    rfl

/-! ### TX.SENDTO (R141) -/

/-- The state that a transmit of one frame leaves, for any body (R122). -/
theorem respond_emitFrame (s : State) (body : List Byte) (st : Status) (d : Half) : (s.emitFrame body).respond st d =
    { s with crc := crcOver (frameHead body), txs := s.txs ++ frameOf body, status := st, data := d } := rfl

/-- TX.SENDTO of a payload that TXBUF holds: one frame behind the header [dest, LOCAL] (R141). -/
theorem exec_txSendto_of_holds {s : State} {len : Byte} (dest : Byte) {p : List Byte}
    (h : len.toNat ≤ s.params.maxPayloadAddr) (hlen : p.length = len.toNat) (holds : s.Holds p) :
    exec (.txSendto len dest) s = .next ((s.emitFrame (dest :: s.localAddr :: p)).respond .ok
      (zext16 (lenByte (dest :: s.localAddr :: p)))) :=
  congrArg _ (transmit_of_holds [dest, s.localAddr] h hlen holds)

/-- Settles O17: the three ends of the transmits' common part; MAX_PAYLOAD − 2 is MAX_FRAME_LEN − 5. -/
theorem txSendtoResults : Obligations.TxSendtoResults := by
  intro s dest legal
  have largest : s.params.maxFrameLen ≤ 255 := legal.2.1
  have limit : s.params.maxFrameLen - 5 = s.params.maxPayloadAddr := (Nat.sub_sub _ 3 2).symm
  refine ⟨fun len long => congrArg _ (transmit_of_gt _ (limit.symm.trans_lt long)),
    fun len fits unwritten => congrArg _ (transmit_of_unwritten _ (fits.trans_eq limit) unwritten),
    fun len p fits hlen holds => ?_⟩
  have length : (dest :: s.localAddr :: p).length + 3 = p.length + 5 := rfl
  rw [exec_txSendto_of_holds dest (fits.trans_eq limit) hlen holds, zext16_lenByte (by omega), length,
    respond_emitFrame]

/-! ### OUT.HDR (R144) -/

theorem highByte_of_pair (hi lo : Byte) : ((zext16 hi <<< 8) ||| zext16 lo).extractLsb' 8 8 = hi := by
  ext i h
  simp [zext16, BitVec.getLsbD_eq_getElem h, show 8 + i < 16 by omega]

theorem lowByte_of_pair (hi lo : Byte) : ((zext16 hi <<< 8) ||| zext16 lo).extractLsb' 0 8 = lo := by
  ext i h
  simp [zext16, show i < 16 by omega, h]

/-- Settles O26: each half of the word reads back one address. -/
theorem outHdrResults : Obligations.OutHdrResults := fun _ =>
  ⟨_, rfl, highByte_of_pair .., lowByte_of_pair ..⟩

/-! ### The addressed layer end to end (R146) -/

/-- Settles O51: the sent frame is `frameOf (d :: LOCAL :: p)`, whose body the receiver's filter accepts or not. -/
theorem addressedDelivery : Obligations.AddressedDelivery := by
  intro s r len cap d promisc p legal hparams hmax hlen holds hb _
  have fits : (d :: s.localAddr :: p).length ≤ r.params.maxPayload := by
    have least : 6 ≤ s.params.maxFrameLen := legal.1
    rw [hparams]
    simp only [Params.maxPayloadAddr, Params.maxPayload, List.length_cons] at hmax ⊢
    omega
  have recv := receiveGood_frameOf (s := { r with rxq := frameOf (d :: s.localAddr :: p) }) (rest := [])
    (deliverAddressed cap promisc) (hparams ▸ legal) (by simp) fits hb (List.append_nil _).symm
  refine ⟨_, frameOf (d :: s.localAddr :: p), _, exec_txSendto_of_holds d (hlen ▸ hmax) hlen.symm holds, rfl,
    (exec_rxRecvfrom ..).trans (congrArg _ recv), fun accepted => ?_, fun rejected => ?_⟩
  · rw [deliverAddressed_of_accepted]
    · exact ⟨rfl, rfl, rfl, rfl⟩
    · exact accepted
  · rw [deliverAddressed_of_filtered]
    · exact ⟨rfl, rfl, rfl, rfl, rfl⟩
    · exact rejected

end Sys2Proof.Machine
end

section
/-! PROOFS. The reliable layer's family (43_reliable.md): the sequence field and the flag byte, the sequence registers,
TX.SENDSEQ, the acknowledgement, what RX.RECVREL and RX.RECVACK do with a good frame, and the layer's delivery. -/

namespace Sys2Proof.Machine

/-! ### The sequence field and the flag byte (R160, R166) -/

theorem seqData_eq_ofNat (q : BitVec 7) : seqData q = BitVec.ofNat 16 q.toNat := (BitVec.ofNat_toNat 16 q).symm

theorem seqField_eq_ofNat (b : Byte) : seqField b = BitVec.ofNat 7 b.toNat := rfl

theorem seqField_toNat (b : Byte) : (seqField b).toNat = b.toNat % 128 := by
  rw [seqField_eq_ofNat, BitVec.toNat_ofNat]

/-- A flag byte is its acknowledgement flag, in bit 7, over its sequence field (R160). -/
theorem flagByte_toNat (flag : Byte) : flag.toNat = 128 * (ackBit flag).toNat + (seqField flag).toNat := by
  revert flag
  decide

theorem seqField_toNat_of_data {flag : Byte} (data : ackBit flag = false) : (seqField flag).toNat = flag.toNat := by
  simp [flagByte_toNat flag, data]

@[simp] theorem ackBit_dataFlagByte (q : BitVec 7) : ackBit (dataFlagByte q) = false := by
  simp [ackBit, dataFlagByte]

@[simp] theorem seqField_dataFlagByte (q : BitVec 7) : seqField (dataFlagByte q) = q := by
  revert q
  decide

@[simp] theorem ackBit_ackFlagByte (q : BitVec 7) : ackBit (ackFlagByte q) = true := by
  simp [ackBit, ackFlagByte]

@[simp] theorem seqField_ackFlagByte (q : BitVec 7) : seqField (ackFlagByte q) = q := by
  revert q
  decide

theorem ackFlagByte_toNat (q : BitVec 7) : (ackFlagByte q).toNat = 128 + q.toNat := by
  rw [flagByte_toNat, ackBit_ackFlagByte, seqField_ackFlagByte]
  rfl

/-- The acknowledgement's flag byte is the one with bit 7 set and its sequence number in the field (R165, R166). -/
theorem eq_ackFlagByte_iff (flag : Byte) (q : BitVec 7) :
    flag = ackFlagByte q ↔ ackBit flag = true ∧ seqField flag = q := by
  refine ⟨by rintro rfl; simp, fun ⟨ack, field⟩ => BitVec.eq_of_toNat_eq ?_⟩
  rw [ackFlagByte_toNat, flagByte_toNat, ack, field]
  rfl

/-- Setting bit 7 of a byte makes it the acknowledgement's flag byte of its own field (R166). -/
theorem ackFlagByte_seqField (b : Byte) : ackFlagByte (seqField b) = b ||| 0x80#8 := by
  revert b
  decide

/-! ### The sequence registers (R161, R162, R169) -/

theorem seq_succ (q : BitVec 7) : q + 1#7 = BitVec.ofNat 7 ((q.toNat + 1) % 128) := by
  apply BitVec.eq_of_toNat_eq
  simp

/-- Settles O27: SEQ counts modulo 128, and the two reads respond with the register's value. -/
theorem sequenceRegisterResults : Obligations.SequenceRegisterResults := by
  intro s a
  refine ⟨?_, ?_, ?_⟩
  · simp only [exec, execSeqNext, seqData_eq_ofNat, seq_succ]
    simp [State.respond]
  · simp only [exec, execSeqRd, seqData_eq_ofNat]
    rfl
  · simp only [exec, execLsRd, seqData_eq_ofNat]
    rfl

/-! ### TX.SENDSEQ (R163) -/

/-- TX.SENDSEQ of a payload that TXBUF holds: one frame behind the header [dest, LOCAL, flag] (R163). -/
theorem exec_txSendseq_of_holds {s : State} {len : Byte} (dest flag : Byte) {p : List Byte}
    (h : len.toNat ≤ s.params.maxPayloadRel) (hlen : p.length = len.toNat) (holds : s.Holds p) :
    exec (.txSendseq len dest flag) s = .next ((s.emitFrame (dest :: s.localAddr :: flag :: p)).respond .ok
      (zext16 (lenByte (dest :: s.localAddr :: flag :: p)))) :=
  congrArg _ (transmit_of_holds [dest, s.localAddr, flag] h hlen holds)

/-- Settles O18: the three ends of the transmits' common part; MAX_PAYLOAD − 3 is MAX_FRAME_LEN − 6. -/
theorem txSendseqResults : Obligations.TxSendseqResults := by
  intro s dest flag legal
  have largest : s.params.maxFrameLen ≤ 255 := legal.2.1
  have limit : s.params.maxFrameLen - 6 = s.params.maxPayloadRel := (Nat.sub_sub _ 3 3).symm
  refine ⟨fun len long => congrArg _ (transmit_of_gt _ (limit.symm.trans_lt long)),
    fun len fits unwritten => congrArg _ (transmit_of_unwritten _ (fits.trans_eq limit) unwritten),
    fun len p fits hlen holds => ?_⟩
  have length : (dest :: s.localAddr :: flag :: p).length + 3 = p.length + 6 := rfl
  rw [exec_txSendseq_of_holds dest flag (fits.trans_eq limit) hlen holds, zext16_lenByte (by omega), length,
    respond_emitFrame]

/-! ### The acknowledgement (R166, R167, R172) -/

/-- Settles O30: LEN = 3 + 3, the flag byte's value, and MAX_FRAME_LEN is at least 6. -/
theorem acknowledgementFrameLayout : Obligations.AcknowledgementFrameLayout := by
  intro s src q
  have flagByte : BitVec.ofNat 8 (128 + q.toNat) = ackFlagByte q := by
    rw [← ackFlagByte_toNat, BitVec.ofNat_toNat, BitVec.setWidth_eq]
  rw [flagByte]
  exact ⟨_, rfl, rfl, fun legal => (length_frameOf _).trans_le legal.1⟩

/-- The acknowledgement of a message, in the message's own flag byte (R166, R167). -/
theorem acknowledge_seqField (s : State) (dest src flag : Byte) : s.acknowledge dest src (seqField flag) =
    if dest = 255#8 then s else { s with
      crc := crcOver (frameHead [src, s.localAddr, flag ||| 0x80#8])
      txs := s.txs ++ frameOf [src, s.localAddr, flag ||| 0x80#8] } := by
  rw [← ackFlagByte_seqField]
  rfl

theorem acknowledge_txs (s : State) (dest src : Byte) (q : BitVec 7) : (s.acknowledge dest src q).txs =
    s.txs ++ if dest = 255#8 then [] else frameOf [src, s.localAddr, ackFlagByte q] := by
  rcases acknowledge_cases s dest src q with ⟨hd, e⟩ | ⟨hd, e⟩
  · rw [e, if_pos (show dest = 255#8 from hd), List.append_nil]
  · rw [e, if_neg (show dest ≠ 255#8 from hd)]
    rfl

/-! ### RX.RECVREL (R164, R167) -/

section DeliverReliable

variable (cap : Byte) {s : State} {dest : Byte} (src : Byte) {flag : Byte} (inner : List Byte)

theorem deliverReliable_of_short {body : List Byte} (h : body.length < 3) :
    deliverReliable cap body s = s.respond .short 0#16 := by
  match body, h with
  | [], _ => rfl
  | [_], _ => rfl
  | [_, _], _ => rfl

theorem deliverReliable_of_filtered (flag : Byte) (h : ¬ (dest = s.localAddr ∨ dest = 255#8)) :
    deliverReliable cap (dest :: src :: flag :: inner) s = s.respond .filtered 0#16 :=
  if_neg (by simpa [accept_iff] using h)

theorem deliverReliable_of_accepted (flag : Byte) (h : dest = s.localAddr ∨ dest = 255#8) :
    deliverReliable cap (dest :: src :: flag :: inner) s =
      if ackBit flag then s.respond .ackFrame 0#16
      else (s.acknowledge dest src (seqField flag)).deliverNew cap dest src (seqField flag) inner :=
  if_pos ((accept_iff s dest false).2 (.inr h))

theorem deliverReliable_of_ack (h : dest = s.localAddr ∨ dest = 255#8) (ack : ackBit flag = true) :
    deliverReliable cap (dest :: src :: flag :: inner) s = s.respond .ackFrame 0#16 := by
  rw [deliverReliable_of_accepted cap src inner flag h, if_pos ack]

theorem deliverReliable_of_data (h : dest = s.localAddr ∨ dest = 255#8) (data : ackBit flag = false) :
    deliverReliable cap (dest :: src :: flag :: inner) s =
      (s.acknowledge dest src (seqField flag)).deliverNew cap dest src (seqField flag) inner := by
  simp [deliverReliable_of_accepted cap src inner flag h, data]

variable (dest) {q : BitVec 7}

theorem deliverNew_of_seen (h : s.lastSeen src = q) :
    s.deliverNew cap dest src q inner = s.respond .dup (seqData q) :=
  if_pos (beq_iff_eq.2 h)

theorem deliverNew_of_new (h : s.lastSeen src ≠ q) :
    s.deliverNew cap dest src q inner =
      (((s.setLastSeen src q).setOutput (truncateTo cap inner)).setOutputHeader dest src).respond .ok
        (countData (truncateTo cap inner).length) :=
  if_neg (mt beq_iff_eq.1 h)

end DeliverReliable

theorem goodFrame_eq_false {f : List Byte} (residue : crcOver f ≠ 0xF0B8#16) : goodFrame f = false :=
  Bool.eq_false_iff.2 (mt (goodFrame_iff f).1 residue)

theorem exec_rxRecvrel (cap : Byte) (s : State) :
    exec (.rxRecvrel cap) s = .next (s.receiveGood (deliverReliable cap)) := rfl

theorem exec_rxRecvrel_of_good (cap : Byte) {s : State} {body : List Byte} (complete : s.rxPull.complete = true)
    (residue : crcOver s.rxPull.rxbuf = 0xF0B8#16) (hbody : frameBody s.rxPull.rxbuf = body) :
    exec (.rxRecvrel cap) s = .next (deliverReliable cap body s.rxPull.rxTake) := by
  rw [exec_rxRecvrel, receiveGood_of_good _ complete ((goodFrame_iff _).2 residue), hbody]

/-- RX.RECVREL of a good, accepted data frame: the acknowledgement, then DUP or delivery (R167). -/
theorem exec_rxRecvrel_of_data {s : State} (cap : Byte) {dest src flag : Byte} {inner : List Byte}
    (complete : s.rxPull.complete = true) (residue : crcOver s.rxPull.rxbuf = 0xF0B8#16)
    (body : frameBody s.rxPull.rxbuf = dest :: src :: flag :: inner) (accepted : dest = s.localAddr ∨ dest = 255#8)
    (data : ackBit flag = false) :
    exec (.rxRecvrel cap) s =
      .next ((s.rxPull.rxTake.acknowledge dest src (seqField flag)).deliverNew cap dest src (seqField flag) inner) := by
  have sameLocal : s.rxPull.rxTake.localAddr = s.localAddr := by simp
  rw [exec_rxRecvrel_of_good cap complete residue body, deliverReliable_of_data cap src inner (by rwa [sameLocal]) data]

/-- Settles O28: the three ends of the receives' common part, and behind the good residue those of the layer; the filter and
the comparator read LOCAL and LASTSEEN, which neither the pull, rx_take nor the acknowledgement writes. -/
theorem rxRecvrelResults : Obligations.RxRecvrelResults := by
  intro s cap
  have sameLocal : s.rxPull.rxTake.localAddr = s.localAddr := by simp
  refine ⟨fun incomplete => congrArg _ (receiveGood_of_incomplete _ incomplete),
    fun complete residue => congrArg _ (receiveGood_of_bad _ complete (goodFrame_eq_false residue)),
    fun complete residue => ⟨fun short => ?_, fun dest src flag inner body => ⟨fun rejected => ?_, fun accepted ack => ?_,
      fun accepted data t acknowledged => ?_⟩⟩⟩
  · rw [exec_rxRecvrel_of_good cap complete residue rfl, deliverReliable_of_short cap short]
    rfl
  · rw [exec_rxRecvrel_of_good cap complete residue body,
      deliverReliable_of_filtered cap src inner flag (by rwa [sameLocal])]
    rfl
  · rw [exec_rxRecvrel_of_good cap complete residue body, deliverReliable_of_ack cap src inner (by rwa [sameLocal]) ack]
    rfl
  · have acked : s.rxPull.rxTake.acknowledge dest src (seqField flag) = t := by
      rw [acknowledged, acknowledge_seqField]
      simp
    have sameSeen : t.lastseen = s.lastseen := by simp [← acked]
    have seen : t.lastSeen src = seqField flag ↔ (s.lastseen[src.toNat]'src.isLt).toNat = flag.toNat := by
      rw [← seqField_toNat_of_data data, BitVec.toNat_inj, State.lastSeen]
      simp [sameSeen]
    rw [exec_rxRecvrel_of_data cap complete residue body accepted data, acked]
    refine ⟨fun same => ?_, fun new => ?_⟩
    · rw [deliverNew_of_seen _ _ _ _ (seen.2 same), seqData_eq_ofNat, seqField_toNat_of_data data]
      rfl
    · rw [deliverNew_of_new _ _ _ _ (mt seen.1 new), length_truncateTo, ← sameSeen]
      rfl

/-! ### What RX.RECVREL surfaces and acknowledges (R170, R171, R172) -/

/-- On a body that is no accepted data message RX.RECVREL only responds (R167, R171). -/
theorem deliverReliable_responds_or_data (cap : Byte) (body : List Byte) (s : State) :
    (∃ st d, deliverReliable cap body s = s.respond st d) ∨
    ∃ dest src flag inner, body = dest :: src :: flag :: inner ∧ (dest = s.localAddr ∨ dest = 255#8) ∧
      ackBit flag = false := by
  rcases body with _ | ⟨dest, _ | ⟨src, _ | ⟨flag, inner⟩⟩⟩
  · exact .inl ⟨_, _, rfl⟩
  · exact .inl ⟨_, _, rfl⟩
  · exact .inl ⟨_, _, rfl⟩
  · by_cases accepted : dest = s.localAddr ∨ dest = 255#8
    · cases data : ackBit flag with
      | false => exact .inr ⟨dest, src, flag, inner, rfl, accepted, data⟩
      | true => exact .inl ⟨_, _, deliverReliable_of_ack cap src inner accepted data⟩
    · exact .inl ⟨_, _, deliverReliable_of_filtered cap src inner flag accepted⟩

/-- RX.RECVREL writes TXS, OUTBUF or LASTSEEN only on a good, accepted data frame, and then as R167 says. -/
theorem exec_rxRecvrel_silent_or_data {s t : State} {cap : Byte} (h : exec (.rxRecvrel cap) s = .next t) :
    (t.txs = s.txs ∧ t.outbuf = s.outbuf ∧ t.lastseen = s.lastseen) ∨
    ∃ dest src flag inner, crcOver s.rxPull.rxbuf = 0xF0B8#16 ∧
      frameBody s.rxPull.rxbuf = dest :: src :: flag :: inner ∧ (dest = s.localAddr ∨ dest = 255#8) ∧
      ackBit flag = false ∧
      t = (s.rxPull.rxTake.acknowledge dest src (seqField flag)).deliverNew cap dest src (seqField flag) inner := by
  obtain rfl := Host.Outcome.next.inj h
  rcases receiveGood_cases s (deliverReliable cap) with ⟨-, e⟩ | ⟨-, -, e⟩ | ⟨-, good, e⟩
  · simp [e]
  · simp [e]
  · rcases deliverReliable_responds_or_data cap (frameBody s.rxPull.rxbuf) s.rxPull.rxTake with
      ⟨st, d, responds⟩ | ⟨dest, src, flag, inner, body, accepted, data⟩
    · simp [e, responds]
    · refine .inr ⟨dest, src, flag, inner, (goodFrame_iff _).1 good, body, by simpa using accepted, data, ?_⟩
      rw [e, body, deliverReliable_of_data cap src inner accepted data]

@[simp] theorem deliverNew_txs (s : State) (cap dest src : Byte) (q : BitVec 7) (inner : List Byte) :
    (s.deliverNew cap dest src q inner).txs = s.txs := by
  by_cases h : s.lastSeen src = q
  · simp [deliverNew_of_seen cap dest src inner h]
  · simp [deliverNew_of_new cap dest src inner h]

/-- A delivery is reported with OK (R167). -/
theorem deliverNew_status_of_changed {s : State} {cap dest src : Byte} {q : BitVec 7} {inner : List Byte}
    (changed : (s.deliverNew cap dest src q inner).outbuf ≠ s.outbuf ∨
      (s.deliverNew cap dest src q inner).lastseen ≠ s.lastseen) :
    (s.deliverNew cap dest src q inner).status = .ok := by
  by_cases h : s.lastSeen src = q
  · simp [deliverNew_of_seen cap dest src inner h] at changed
  · simp [deliverNew_of_new cap dest src inner h]

/-- Settles O31: only the acknowledgement of an accepted data frame, not a broadcast, adds to TXS, and only its delivery writes
OUTBUF or LASTSEEN. -/
theorem onlyDataFramesAreAcknowledged : Obligations.OnlyDataFramesAreAcknowledged := by
  intro s t cap h
  rcases exec_rxRecvrel_silent_or_data h with
    ⟨htxs, hout, hseen⟩ | ⟨dest, src, flag, inner, residue, body, accepted, data, rfl⟩
  · exact ⟨(absurd htxs ·), fun changed => (changed.elim (· hout) (· hseen)).elim⟩
  · refine ⟨fun sent => ?_, fun changed => ?_⟩
    · have unicast : dest ≠ 255#8 := by
        rintro rfl
        exact sent (by simp [acknowledge_txs])
      obtain rfl : dest = s.localAddr := accepted.resolve_right unicast
      exact ⟨src, flag, inner, body, unicast, residue, data,
        by simp [acknowledge_txs, unicast, ackFlagByte_seqField]⟩
    · exact ⟨dest, src, flag, inner, body, data, deliverNew_status_of_changed (by simpa using changed)⟩

/-- Settles O32: 0 is the sequence number of the flag byte 0, so the comparator meets the entry 0 and not the entry 127. -/
theorem sequenceWrapMeetsTheSentinel : Obligations.SequenceWrapMeetsTheSentinel := by
  refine ⟨fun a => ?_, ⟨_, rfl, rfl⟩, fun s last => ⟨_, rfl, ?_⟩,
    fun s cap dest src inner complete residue body accepted => ?_⟩
  · simp [State.lastSeen, State.reset, State.fresh]
  · simp [last]
  · have run := exec_rxRecvrel_of_data cap complete residue body accepted rfl
    have entry : (s.rxPull.rxTake.acknowledge dest src (seqField 0#8)).lastSeen src = s.lastSeen src := by
      simp [State.lastSeen]
    refine ⟨fun sentinel => ⟨_, run, ?_⟩, fun wrapped => ⟨_, run, ?_⟩⟩
    · rw [deliverNew_of_seen cap dest src inner (q := seqField 0#8) (entry.trans sentinel)]
      exact ⟨rfl, by simp, by simp, by simp [acknowledge_txs, ackFlagByte_seqField]⟩
    · rw [deliverNew_of_new cap dest src inner (by rw [entry, wrapped]; decide)]
      exact ⟨rfl, rfl, by simp [State.lastSeen, seqField_eq_ofNat]⟩

/-! ### RX.RECVACK (R165, R168) -/

theorem ackMatch_iff (s : State) (dest src d : Byte) (inner : List Byte) (q : BitVec 7) :
    s.ackMatch (dest :: src :: inner) d q = true ↔
      src = d ∧ dest = s.localAddr ∧ ∃ tail, inner = ackFlagByte q :: tail := by
  cases inner with
  | nil => simp [State.ackMatch]
  | cons flag tail => simp [State.ackMatch, eq_ackFlagByte_iff, and_assoc]

section AwaitAck

variable {s : State} {d : Byte} {q : BitVec 7} {dest src : Byte} {inner : List Byte}

theorem awaitAck_of_short (d : Byte) (q : BitVec 7) {body : List Byte} (h : body.length < 2) :
    awaitAck d q body s = s.respond .short 0#16 := by
  match body, h with
  | [], _ => rfl
  | [_], _ => rfl

theorem awaitAck_of_filtered (d src : Byte) (q : BitVec 7) (inner : List Byte)
    (h : ¬ (dest = s.localAddr ∨ dest = 255#8)) :
    awaitAck d q (dest :: src :: inner) s = s.respond .filtered 0#16 :=
  if_neg (by simpa [accept_iff] using h)

theorem awaitAck_of_accepted (h : dest = s.localAddr ∨ dest = 255#8) :
    awaitAck d q (dest :: src :: inner) s =
      if s.ackMatch (dest :: src :: inner) d q then s.respond .ackMatch (seqData q) else s.respond .other 0#16 :=
  if_pos ((accept_iff s dest false).2 (.inr h))

theorem awaitAck_of_awaited (h : src = d ∧ dest = s.localAddr ∧ ∃ tail, inner = ackFlagByte q :: tail) :
    awaitAck d q (dest :: src :: inner) s = s.respond .ackMatch (seqData q) := by
  have mine : dest = s.localAddr := h.2.1
  rw [awaitAck_of_accepted (.inl mine), if_pos ((ackMatch_iff ..).2 h)]

theorem awaitAck_of_other (accepted : dest = s.localAddr ∨ dest = 255#8)
    (h : ¬ (src = d ∧ dest = s.localAddr ∧ ∃ tail, inner = ackFlagByte q :: tail)) :
    awaitAck d q (dest :: src :: inner) s = s.respond .other 0#16 := by
  rw [awaitAck_of_accepted accepted, if_neg (mt (ackMatch_iff ..).1 h)]

end AwaitAck

theorem exec_rxRecvack (d t : Byte) (s : State) :
    exec (.rxRecvack d t) s = .next (s.receiveGood (awaitAck d (seqField t))) := rfl

theorem exec_rxRecvack_of_good (d t : Byte) {s : State} {body : List Byte} (complete : s.rxPull.complete = true)
    (residue : crcOver s.rxPull.rxbuf = 0xF0B8#16) (hbody : frameBody s.rxPull.rxbuf = body) :
    exec (.rxRecvack d t) s = .next (awaitAck d (seqField t) body s.rxPull.rxTake) := by
  rw [exec_rxRecvack, receiveGood_of_good _ complete ((goodFrame_iff _).2 residue), hbody]

/-- Settles O29: the three ends of the receives' common part, and behind the good residue those of the layer; the awaited flag
byte is the one of c's sequence field. -/
theorem rxRecvackResults : Obligations.RxRecvackResults := by
  intro s d t
  have sameLocal : s.rxPull.rxTake.localAddr = s.localAddr := by simp
  rw [← sameLocal, ← ackFlagByte_seqField]
  refine ⟨fun incomplete => congrArg _ (receiveGood_of_incomplete _ incomplete),
    fun complete residue => congrArg _ (receiveGood_of_bad _ complete (goodFrame_eq_false residue)),
    fun complete residue => ⟨fun short => ?_, fun dest src inner body => ⟨fun rejected => ?_, fun accepted =>
      ⟨fun awaited => ?_, fun other => ?_⟩⟩⟩⟩
  · rw [exec_rxRecvack_of_good d t complete residue rfl, awaitAck_of_short d _ short]
    rfl
  · rw [exec_rxRecvack_of_good d t complete residue body, awaitAck_of_filtered d src _ inner rejected]
    rfl
  · rw [exec_rxRecvack_of_good d t complete residue body, awaitAck_of_awaited awaited, seqData_eq_ofNat, seqField_toNat]
    rfl
  · rw [exec_rxRecvack_of_good d t complete residue body, awaitAck_of_other accepted other]
    rfl

/-! ### The reliable layer end to end (R165 to R168, R173) -/

section Delivery

variable {s : State} (legal : s.params.Legal) (hb : s.rxbuf = [])
include legal hb

/-- A frame that arrives alone at an empty buffer is consumed whole, and the layer gets its body (R124, R125). -/
theorem receiveGood_arrived (layer : List Byte → State → State) {body : List Byte} (hpos : 1 ≤ body.length)
    (fits : body.length ≤ s.params.maxPayload) :
    State.receiveGood { s with rxq := frameOf body } layer = layer body { s with
      crc := goodResidue, goodcnt := bump s.params.cntW s.goodcnt, rxbuf := [], rxq := [] } :=
  receiveGood_frameOf (s := { s with rxq := frameOf body }) layer legal hpos fits hb (List.append_nil _).symm

variable {dest src : Byte} {q : BitVec 7} (address : s.localAddr = dest)
include address

section Receiver

variable (cap : Byte) {p : List Byte} (hmax : p.length ≤ s.params.maxPayloadRel)
include hmax

/-- RX.RECVREL of a data message's frame, arriving at an empty buffer: it acknowledges, and reports DUP or delivers. -/
theorem exec_rxRecvrel_frameOf :
    exec (.rxRecvrel cap) { s with rxq := frameOf (dest :: src :: dataFlagByte q :: p) } =
      .next ((State.acknowledge { s with
        crc := goodResidue, goodcnt := bump s.params.cntW s.goodcnt, rxbuf := [], rxq := [] } dest src q).deliverNew
          cap dest src q p) := by
  have fits : (dest :: src :: dataFlagByte q :: p).length ≤ s.params.maxPayload := by
    have least : 6 ≤ s.params.maxFrameLen := legal.1
    simp only [Params.maxPayloadRel, Params.maxPayload, List.length_cons] at hmax ⊢
    omega
  rw [exec_rxRecvrel, receiveGood_arrived legal hb _ (by simp) fits,
    deliverReliable_of_data cap src p ?_ (ackBit_dataFlagByte q), seqField_dataFlagByte]
  exact .inl address.symm

variable (unicast : dest ≠ 255#8)
include unicast

/-- A new message is delivered, recorded and acknowledged with one frame (R166, R167). -/
theorem rxRecvrel_delivers_new (new : s.lastSeen src ≠ q) : ∃ t,
    exec (.rxRecvrel cap) { s with rxq := frameOf (dest :: src :: dataFlagByte q :: p) } = .next t ∧
    t.status = .ok ∧ t.outbuf = p.take cap.toNat ∧ t.outfrom = src ∧ t.lastSeen src = q ∧
    t.txs = s.txs ++ frameOf [src, dest, ackFlagByte q] ∧
    t.params = s.params ∧ t.rxbuf = [] ∧ t.localAddr = dest := by
  refine ⟨_, exec_rxRecvrel_frameOf legal hb address cap hmax, ?_⟩
  rw [deliverNew_of_new _ _ _ _ (by simpa [State.lastSeen] using new)]
  exact ⟨rfl, rfl, rfl, by simp [State.lastSeen], by simp [acknowledge_txs, unicast, address], by simp, by simp,
    by simp [address]⟩

/-- A message seen before is acknowledged again and not delivered again (R164, R167, R173). -/
theorem rxRecvrel_suppresses_seen (seen : s.lastSeen src = q) : ∃ t,
    exec (.rxRecvrel cap) { s with rxq := frameOf (dest :: src :: dataFlagByte q :: p) } = .next t ∧
    t.status = .dup ∧ t.outbuf = s.outbuf ∧ t.lastseen = s.lastseen ∧
    t.txs = s.txs ++ frameOf [src, dest, ackFlagByte q] := by
  refine ⟨_, exec_rxRecvrel_frameOf legal hb address cap hmax, ?_⟩
  rw [deliverNew_of_seen _ _ _ _ (by simpa [State.lastSeen] using seen)]
  exact ⟨rfl, by simp, by simp, by simp [acknowledge_txs, unicast, address]⟩

end Receiver

/-- The acknowledgement of the awaited number from the awaited sender matches, and nothing is transmitted (R165, R168). -/
theorem rxRecvack_matches : ∃ t,
    exec (.rxRecvack src (dataFlagByte q)) { s with rxq := frameOf [dest, src, ackFlagByte q] } = .next t ∧
    t.status = .ackMatch ∧ t.txs = s.txs := by
  have fits : [dest, src, ackFlagByte q].length ≤ s.params.maxPayload := Nat.sub_le_sub_right legal.1 3
  refine ⟨_, exec_rxRecvack .., ?_⟩
  rw [receiveGood_arrived legal hb _ (by simp) fits, seqField_dataFlagByte, awaitAck_of_awaited]
  · exact ⟨rfl, rfl⟩
  · exact ⟨rfl, address.symm, [], rfl⟩

end Delivery

/-- Settles O52: the receiver's two commands meet the sent frame before and after LASTSEEN holds its number, and the sender's
meets the acknowledgement. -/
theorem reliableDeliveryAndSuppression : Obligations.ReliableDeliveryAndSuppression := by
  intro s r len cap d q p legal hparams hmax hlen holds hb _ address unicast hbs _ new
  have sends := exec_txSendseq_of_holds d (dataFlagByte q) (hlen ▸ hmax) hlen.symm holds
  obtain ⟨r1, first, ok, delivered, sender, recorded, acked, params1, empty1, address1⟩ :=
    rxRecvrel_delivers_new (hparams ▸ legal) hb address cap (hparams ▸ hmax) unicast new
  have params2 : r1.params = s.params := params1.trans hparams
  obtain ⟨r2, second, dup, kept, unrecorded, ackedAgain⟩ :=
    rxRecvrel_suppresses_seen (params2 ▸ legal) empty1 address1 cap (params2 ▸ hmax) unicast recorded
  obtain ⟨s'', third, matched, silent⟩ := rxRecvack_matches (s := (s.emitFrame _).respond .ok _) legal hbs rfl
  exact ⟨_, _, _, r1, r2, s'', sends, rfl, length_frameOf _, first, ok, delivered, sender, recorded, acked, second, dup,
    kept, unrecorded, ackedAgain, third, matched, silent⟩

end Sys2Proof.Machine
end

section
/-! PROOFS. The configuration family (44_config.md): the local address, the reads of the counters and of FAULT, and what every
command can do to a counter and to FAULT. -/

namespace Sys2Proof.Machine

/-! ### The local address (R181, R182) -/

theorem exec_cfgSetaddr_broadcast (s : State) : exec (.cfgSetaddr broadcast) s = .next (s.respond .range 0#16) := rfl

theorem exec_cfgSetaddr_of_ne {a : Byte} (s : State) (h : a ≠ broadcast) :
    exec (.cfgSetaddr a) s = .next (State.respond { s with localAddr := a } .ok 0#16) :=
  congrArg Host.Outcome.next (if_neg h)

theorem exec_cfgRdaddr (s : State) : exec .cfgRdaddr s = .next (s.respond .ok (zext16 s.localAddr)) := rfl

/-- Settles O33: 255 is the broadcast address, which CFG.SETADDR refuses; every other address is taken and read back. -/
theorem localAddressResults : Obligations.LocalAddressResults := by
  intro s
  refine ⟨exec_cfgSetaddr_broadcast s, fun a => exec_cfgSetaddr_of_ne s, ?_⟩
  rw [exec_cfgRdaddr, zext16_eq_ofNat]
  rfl

/-! ### What a command can do to a counter (R28, R29) -/

/-- rx_pull counts at most one event: it ends at the first byte that it rejects (R124). -/
theorem rxPullLoop_badcnt (q : List Byte) : ∀ s : State,
    (State.rxPullLoop q s).badcnt = s.badcnt ∨ (State.rxPullLoop q s).badcnt = bump s.params.cntW s.badcnt := by
  induction q with
  | nil => exact fun s => .inl rfl
  | cons v q ih =>
    intro s
    simp only [State.rxPullLoop]
    split_ifs
    · exact .inl rfl
    · exact ih ((s.rxPopTo q).rxPush v)
    · exact .inr rfl
    · exact ih ((s.rxPopTo q).rxPush v)

theorem rxPull_badcnt (s : State) :
    s.rxPull.badcnt = s.badcnt ∨ s.rxPull.badcnt = bump s.params.cntW s.badcnt := rxPullLoop_badcnt s.rxq s

/-- rx_take counts its frame where the frame is good (R125). -/
theorem rxPull_rxTake_goodcnt (s : State) :
    s.rxPull.rxTake.goodcnt = s.goodcnt ∨ s.rxPull.rxTake.goodcnt = bump s.params.cntW s.goodcnt := by
  cases hg : goodFrame s.rxPull.bufferedFrame with
  | false => exact .inl (by simp [hg])
  | true => exact .inr (by simp [hg])

section Counters

variable {i : Instr} {s t : State}

/-- BADCNT is where the command found it or where its rx_pull left it (R124). -/
theorem ExecEffect.badcnt_eq (h : ExecEffect s i t) : t.badcnt = s.badcnt ∨ t.badcnt = s.rxPull.badcnt := by
  cases h with
  | rxAvail | noFrame | baseFrame | badFcs | undelivered | addressedFrame | duplicate | newMessage =>
    exact .inr (by simp)
  | _ => exact .inl (by simp)

/-- GOODCNT is where the command found it or where its rx_take left it (R125). -/
theorem ExecEffect.goodcnt_eq (h : ExecEffect s i t) : t.goodcnt = s.goodcnt ∨ t.goodcnt = s.rxPull.rxTake.goodcnt := by
  cases h with
  | baseFrame | badFcs | undelivered | addressedFrame | duplicate | newMessage => exact .inr (by simp)
  | _ => exact .inl (by simp)

theorem ExecEffect.badcnt_counts (h : ExecEffect s i t) :
    t.badcnt = s.badcnt ∨ t.badcnt = bump s.params.cntW s.badcnt :=
  h.badcnt_eq.elim .inl fun pulled => pulled ▸ rxPull_badcnt s

theorem ExecEffect.goodcnt_counts (h : ExecEffect s i t) :
    t.goodcnt = s.goodcnt ∨ t.goodcnt = bump s.params.cntW s.goodcnt :=
  h.goodcnt_eq.elim .inl fun taken => taken ▸ rxPull_rxTake_goodcnt s

/-- FAULT is sticky under every command (R37, R186). -/
theorem ExecEffect.faultFlag_sticky (h : ExecEffect s i t) (fault : s.faultFlag = true) : t.faultFlag = true :=
  h.faultFlag_writer.elim (·.trans fault) fun ⟨_, _, raised⟩ => raised

end Counters

/-! ### The reads (R180, R183 to R185) -/

theorem exec_nop (s : State) : exec .nop s = .next (s.respond .ok 0#16) := rfl

theorem exec_cntRdbad (s : State) : exec .cntRdbad s = .next (s.respond .ok s.badcnt) := rfl

theorem exec_cntRdgood (s : State) : exec .cntRdgood s = .next (s.respond .ok s.goodcnt) := rfl

theorem exec_fltRd (s : State) : exec .fltRd s = .next (s.respond .ok (faultData s.faultFlag)) := rfl

/-- Settles O34: the four reads respond, and every effect of a command counts once, counts nothing, and keeps FAULT. -/
theorem counterAndFaultReads : Obligations.CounterAndFaultReads := by
  intro s
  refine ⟨exec_nop s, exec_cntRdbad s, exec_cntRdgood s, exec_fltRd s, fun i t h => ?_⟩
  have effect := exec_effect h
  exact ⟨effect.badcnt_counts, effect.goodcnt_counts, effect.faultFlag_sticky⟩

end Sys2Proof.Machine
end

section
/-! PROOFS. The host's family (46_host.md): an equation for each end of a host operation, what a step can do to a procedure in
progress (`HostMove`), and from these the host's invariant, the turns of the procedures, R209's phases and host_send's run. -/

namespace Sys2Proof.Machine

/-! ### The ends of the host's operations -/

section Operations

variable {s : State} {job : WaitJob} {what : HostSend} {p : List Byte} {i k t0 : Nat}

/-- TXB.LOAD writes cell `i` while a byte of the payload is left (R83). -/
theorem hostLoad_of_lt (h : i < p.length) :
    s.hostLoad what p i = s.issue (.txbWr (BitVec.ofNat 8 i) p[i]) (.load what p (i + 1)) := by
  simp [State.hostLoad, h]

theorem hostLoad_of_le (h : p.length ≤ i) : s.hostLoad what p i = s.hostTransmit what p := by
  simp [State.hostLoad, h]

theorem hostAttempt_of_le (h : k ≤ job.retries) : s.hostAttempt job k =
    s.issue (.txSendseq (BitVec.ofNat 8 job.payload.length) job.dest (dataFlagByte job.seq)) (.transmitted job k s.clock) :=
  if_pos h

theorem hostAttempt_of_gt (h : job.retries < k) : s.hostAttempt job k = s.finish .failWait := if_neg (Nat.not_le.2 h)

theorem hostPoll_of_open (h : s.clock - t0 < job.timeoutMs) :
    s.hostPoll job k t0 = s.issue (.rxRecvack job.dest (dataFlagByte job.seq)) (.polled job k t0) := if_pos h

theorem hostPoll_of_elapsed (h : job.timeoutMs ≤ s.clock - t0) :
    s.hostPoll job k t0 = { s with task := .attempt job (k + 1) } := if_neg (Nat.not_lt.2 h)

end Operations

section Reading

variable {s : State} {good report : Bool} {total : Nat} {bytes : List Byte}

theorem hostRead_of_lt (h : bytes.length < total) : s.hostRead good report total bytes =
    s.issue (.outRd (BitVec.ofNat 8 bytes.length)) (.reading good report total bytes) := if_pos h

/-- Once every byte is read, the addresses are read where the procedure reports them (R204). -/
theorem hostRead_of_le (h : total ≤ bytes.length) : s.hostRead good report total bytes =
    if report = true then s.issue .outHdr (.header good bytes) else s.finish (.received good bytes none) :=
  if_neg (Nat.not_lt.2 h)

theorem hostReceived_of_noFrame (what : HostReceive) (h : s.status = .noFrame) :
    s.hostReceived what = s.finish (.received false [] none) := by
  simp [State.hostReceived, h, nothingReceived]

theorem hostReceived_of_ok (what : HostReceive) (h : s.status = .ok) :
    s.hostReceived what = s.hostRead true what.reports s.data.toNat [] := by
  simp [State.hostReceived, h]

/-- On every other status host_recv reads what OUTBUF holds and returns (R203). -/
theorem hostReceived_base (cap : Byte) (noFrame : s.status ≠ .noFrame) (ok : s.status ≠ .ok) :
    s.hostReceived (.base cap) = s.hostRead false false s.data.toNat [] := by
  simp [State.hostReceived]

/-- On every other status the loops issue their command again (R204, R208). -/
theorem hostReceived_loop {what : HostReceive} (loop : ∀ cap, what ≠ .base cap) (noFrame : s.status ≠ .noFrame)
    (ok : s.status ≠ .ok) : s.hostReceived what = s.issue what.command (.receiving what) := by
  cases what with
  | base cap => exact absurd rfl (loop cap)
  | addressed cap promisc report => simp [State.hostReceived]
  | reliable cap => simp [State.hostReceived]

end Reading

/-! ### The host's turn in each task -/

section Turn

variable {s : State}

/-- An idle host has no turn (R209). -/
theorem hostTurn_idle (h : s.task = .idle) : s.hostTurn = s := by
  simp [State.hostTurn, h]

theorem hostTurn_seqNext {job : WaitJob} (h : s.task = .seqNext job) :
    s.hostTurn = s.hostLoad (.reliable { job with seq := s.data.extractLsb' 0 7 }) job.payload 0 := by
  simp [State.hostTurn, h]

theorem hostTurn_load {what : HostSend} {p : List Byte} {i : Nat} (h : s.task = .load what p i) :
    s.hostTurn = s.hostLoad what p i := by
  simp [State.hostTurn, h]

theorem hostTurn_sent (h : s.task = .sent) : s.hostTurn = s.finish (if s.status = .ok then .success else .fail) := by
  simp [State.hostTurn, h]

theorem hostTurn_attempt {job : WaitJob} {k : Nat} (h : s.task = .attempt job k) : s.hostTurn = s.hostAttempt job k := by
  simp [State.hostTurn, h]

/-- What ends a host_sendToWait with ACKNOWLEDGED: a broadcast's one transmission, or ACKMATCH (R206). -/
theorem hostTurn_acknowledged {job : WaitJob} {k t0 : Nat}
    (h : s.task = .transmitted job k t0 ∧ job.dest = broadcast ∨ s.task = .polled job k t0 ∧ s.status = .ackMatch) :
    s.hostTurn = s.finish .acknowledged := by
  rcases h with ⟨task, dest⟩ | ⟨task, status⟩
  · simp [State.hostTurn, task, dest]
  · simp [State.hostTurn, task, status]

/-- What leads to the poll window's test: any other transmission or answer (R206). -/
theorem hostTurn_poll {job : WaitJob} {k t0 : Nat}
    (h : s.task = .transmitted job k t0 ∧ job.dest ≠ broadcast ∨ s.task = .polled job k t0 ∧ s.status ≠ .ackMatch) :
    s.hostTurn = s.hostPoll job k t0 := by
  rcases h with ⟨task, dest⟩ | ⟨task, status⟩
  · simp [State.hostTurn, task, dest]
  · simp [State.hostTurn, task, status]

theorem hostTurn_receiving {what : HostReceive} (h : s.task = .receiving what) : s.hostTurn = s.hostReceived what := by
  simp [State.hostTurn, h]

theorem hostTurn_reading {good report : Bool} {total : Nat} {bytes : List Byte}
    (h : s.task = .reading good report total bytes) :
    s.hostTurn = s.hostRead good report total (bytes ++ [s.data.extractLsb' 0 8]) := by
  simp [State.hostTurn, h]

theorem hostTurn_header {good : Bool} {bytes : List Byte} (h : s.task = .header good bytes) : s.hostTurn =
    s.finish (.received good bytes (some (s.data.extractLsb' 0 8, s.data.extractLsb' 8 8))) := by
  simp [State.hostTurn, h]

/-- host_waitAvailable's turn: a hold while RXQ is empty (R210). -/
theorem hostTurn_waiting (h : s.task = .waiting) :
    s.hostTurn = if s.rxq = [] then s else s.finish .available := by
  simp [State.hostTurn, h]

/-- With no command presented and nothing on the agenda, a step is a turn of the host (R22). -/
theorem step_of_turn (hcmd : s.cmd = none) (ha : s.agenda = []) : step s = .next s.hostTurn := by
  simp [step, hcmd, State.agentsMove, ha]

end Turn

/-! ### What a step can do to a procedure in progress -/

/-- `t` follows from `s` without a move of the procedure: the parameters and the host's task stay, and the clock does not go
back (R22, R207). -/
structure SameProcedure (s t : State) : Prop where
  params : t.params = s.params
  task : t.task = s.task
  clock : s.clock ≤ t.clock

/-- Everything a step can do to the host's procedure: one constructor per kind of move. `step_hostMove` ties it to `step`. -/
inductive HostMove (s : State) : State → Prop where
  /-- The presented word is executed (R54, R80). -/
  | answer {t : State} (presented : s.cmd ≠ none) (taken : t.cmd = none) (same : SameProcedure s t) : HostMove s t
  /-- The host takes a turn (R22). -/
  | turn (unpresented : s.cmd = none) (rest : List Event) : HostMove s (State.hostTurn { s with agenda := rest })
  /-- An idle host's call begins (R200). -/
  | call (idle : s.task = .idle) (rest : List Event) (c : HostCall) :
      HostMove s (State.hostStart { s with agenda := rest, result := none } c)
  /-- An idle host presents a word, or another agent moves (R22, R40). -/
  | other {t : State} (port : t.cmd = s.cmd ∨ s.task = .idle) (same : SameProcedure s t) : HostMove s t

theorem execWord_sameProcedure {s t : State} {w : Word} (h : s.execWord w = .next t) : t.cmd = s.cmd ∧ SameProcedure s t := by
  unfold State.execWord at h
  split at h
  next =>
    obtain ⟨params, cmd, task, -, clock, -⟩ := (exec_effect h).surroundings_kept
    exact ⟨cmd, params, task, clock.ge⟩
  next =>
    obtain rfl := Host.Outcome.next.inj h
    exact ⟨rfl, rfl, rfl, le_rfl⟩

theorem agentsMove_hostMove {s : State} (hcmd : s.cmd = none) : HostMove s s.agentsMove := by
  unfold State.agentsMove
  split
  next => exact .turn hcmd s.agenda
  next e rest _ =>
    split_ifs with waits
    · exact .turn hcmd s.agenda
    · have idle : e.needsIdleHost = true → s.task = .idle := by simpa using waits
      cases e with
      | command w => exact .other (.inr (idle rfl)) ⟨rfl, rfl, le_rfl⟩
      | call c => exact .call (idle rfl) rest c
      | host => exact .turn hcmd rest
      | arrive bytes => exact .other (.inl rfl) ⟨rfl, rfl, le_rfl⟩
      | consume n => exact .other (.inl rfl) ⟨rfl, rfl, le_rfl⟩
      | tick ms => exact .other (.inl rfl) ⟨rfl, rfl, Nat.le_add_right ..⟩
      | powerOn => exact .other (.inl rfl) ⟨rfl, rfl, le_rfl⟩

theorem step_hostMove {s t : State} (h : step s = .next t) : HostMove s t := by
  rcases Option.eq_none_or_eq_some s.cmd with hcmd | ⟨w, hcmd⟩
  · simp only [step, hcmd] at h
    obtain rfl := Host.Outcome.next.inj h
    exact agentsMove_hostMove hcmd
  · rw [step_of_cmd hcmd] at h
    obtain ⟨taken, params, task, clock⟩ := execWord_sameProcedure h
    exact .answer (by simp [hcmd]) taken ⟨params, task, clock⟩

/-! ### The host's invariant (R203, R206, R211) -/

/-- The invariant speaks of the parameters, the task and the clock, and of the clock only as a bound from above. -/
theorem State.HostInv.sameProcedure {s t : State} (h : s.HostInv) (same : SameProcedure s t) : t.HostInv := by
  obtain ⟨params, task, clock⟩ := same
  revert h
  simp only [State.HostInv, params, task]
  cases s.task with
  | transmitted job k t0 => exact fun ⟨allowed, past, dest⟩ => ⟨allowed, past.trans clock, dest⟩
  | polled job k t0 => exact fun ⟨allowed, past, dest⟩ => ⟨allowed, past.trans clock, dest⟩
  | _ => exact id

section Keeps

variable {s : State}

theorem hostLoad_hostInv {what : HostSend} {p : List Byte} {i : Nat} (fits : p.length ≤ what.limit s.params)
    (within : i ≤ p.length) : (s.hostLoad what p i).HostInv := by
  rcases within.lt_or_eq with left | done
  · rw [hostLoad_of_lt left]
    exact ⟨fits, left⟩
  · rw [hostLoad_of_le done.ge]
    cases what with
    | base => trivial
    | addressed d => trivial
    | reliable job => exact ⟨Nat.zero_le _, fun later => absurd later (Nat.lt_irrefl 0)⟩

theorem hostAttempt_hostInv {job : WaitJob} {k : Nat} (dest : 0 < k → job.dest ≠ broadcast) :
    (s.hostAttempt job k).HostInv := by
  rcases Nat.lt_or_ge job.retries k with exhausted | allowed
  · rw [hostAttempt_of_gt exhausted]
    trivial
  · rw [hostAttempt_of_le allowed]
    exact ⟨allowed, le_rfl, dest⟩

theorem hostPoll_hostInv {job : WaitJob} {k t0 : Nat} (allowed : k ≤ job.retries) (past : t0 ≤ s.clock)
    (dest : job.dest ≠ broadcast) : (s.hostPoll job k t0).HostInv := by
  rcases Nat.lt_or_ge (s.clock - t0) job.timeoutMs with inside | elapsed
  · rw [hostPoll_of_open inside]
    exact ⟨allowed, past, dest⟩
  · rw [hostPoll_of_elapsed elapsed]
    exact ⟨Nat.succ_le_succ allowed, fun _ => dest⟩

theorem hostRead_hostInv (good report : Bool) (total : Nat) (bytes : List Byte) :
    (s.hostRead good report total bytes).HostInv := by
  rcases Nat.lt_or_ge bytes.length total with left | done
  · rw [hostRead_of_lt left]
    exact left
  · rw [hostRead_of_le done]
    split_ifs <;> trivial

theorem hostReceived_hostInv (what : HostReceive) : (s.hostReceived what).HostInv := by
  unfold State.hostReceived
  split
  · exact hostRead_hostInv ..
  · trivial
  · cases what with
    | base cap => exact hostRead_hostInv ..
    | addressed cap promisc report => trivial
    | reliable cap => trivial

theorem hostStart_hostInv (c : HostCall) : (s.hostStart c).HostInv := by
  cases c with
  | send p =>
    simp only [State.hostStart]
    split_ifs with long
    · trivial
    · exact hostLoad_hostInv (Nat.not_lt.1 long) (Nat.zero_le _)
  | sendTo d p =>
    simp only [State.hostStart]
    split_ifs with long
    · trivial
    · exact hostLoad_hostInv (Nat.not_lt.1 long) (Nat.zero_le _)
  | sendToWait d p t r =>
    simp only [State.hostStart]
    split_ifs with long
    · trivial
    · exact Nat.not_lt.1 long
  | recv cap => trivial
  | recvFrom cap promisc => trivial
  | recvAddressed cap => trivial
  | recvFromAck cap => trivial
  | waitAvailable => trivial

theorem hostTurn_hostInv (inv : s.HostInv) : s.hostTurn.HostInv := by
  have h := inv
  cases task : s.task <;> simp only [State.HostInv, task] at h
  case idle => rwa [hostTurn_idle task]
  case seqNext job =>
    rw [hostTurn_seqNext task]
    exact hostLoad_hostInv h (Nat.zero_le _)
  case load what p i =>
    obtain ⟨fits, within⟩ := h
    rw [hostTurn_load task]
    exact hostLoad_hostInv fits within
  case sent =>
    rw [hostTurn_sent task]
    trivial
  case attempt job k =>
    obtain ⟨_, dest⟩ := h
    rw [hostTurn_attempt task]
    exact hostAttempt_hostInv dest
  case transmitted job k t0 =>
    obtain ⟨allowed, past, _⟩ := h
    by_cases dest : job.dest = broadcast
    · rw [hostTurn_acknowledged (.inl ⟨task, dest⟩)]
      trivial
    · rw [hostTurn_poll (.inl ⟨task, dest⟩)]
      exact hostPoll_hostInv allowed past dest
  case polled job k t0 =>
    obtain ⟨allowed, past, dest⟩ := h
    by_cases acknowledged : s.status = .ackMatch
    · rw [hostTurn_acknowledged (.inr ⟨task, acknowledged⟩)]
      trivial
    · rw [hostTurn_poll (.inr ⟨task, acknowledged⟩)]
      exact hostPoll_hostInv allowed past dest
  case receiving what =>
    rw [hostTurn_receiving task]
    exact hostReceived_hostInv what
  case reading good report total bytes =>
    rw [hostTurn_reading task]
    exact hostRead_hostInv ..
  case header good bytes =>
    rw [hostTurn_header task]
    trivial
  case waiting =>
    rw [hostTurn_waiting task]
    split_ifs
    · exact inv
    · trivial

end Keeps

/-- Settles O45: a call starts with the invariant, a turn keeps it, and every other move leaves the procedure where it was. -/
theorem stepKeepsTheHostInvariant : Obligations.StepKeepsTheHostInvariant := by
  intro s t h hstep
  cases step_hostMove hstep with
  | answer _ _ same => exact h.sameProcedure same
  | turn _ rest => exact hostTurn_hostInv (h.sameProcedure ⟨rfl, rfl, le_rfl⟩)
  | call _ rest c => exact hostStart_hostInv c
  | other _ same => exact h.sameProcedure same

/-! ### The sends that fail, the hold and the receive loops -/

/-- Settles O57: the call is the agenda's first event, and each send's length check comes before everything else. -/
theorem oversizeSendsFailAtOnce : Obligations.OversizeSendsFailAtOnce := by
  intro s p rest c hcmd idle ha
  rw [step_of_agenda hcmd ha (.inr idle)]
  constructor
  · rintro (⟨rfl, long⟩ | ⟨d, rfl, long⟩)
    · simp [State.happen, State.hostStart, State.finish, long, idle]
    · simp [State.happen, State.hostStart, State.finish, long, idle]
  · rintro ⟨d, t, r, rfl, long⟩
    simp [State.happen, State.hostStart, State.finish, long, idle]

theorem step_waiting {s : State} (hcmd : s.cmd = none) (ha : s.agenda = []) (task : s.task = .waiting) :
    step s = .next (if s.rxq = [] then s else s.finish .available) := by
  rw [step_of_turn hcmd ha, hostTurn_waiting task]

/-- Settles O60: the turn's test of RXQ, before and after the arrival. -/
theorem waitAvailableHolds : Obligations.WaitAvailableHolds := by
  intro s hcmd ha task
  refine ⟨fun empty => ?_, fun pending => ?_, fun bytes some_arrive => ?_⟩
  · rw [step_waiting hcmd ha task, if_pos empty]
  · rw [step_waiting hcmd ha task, if_neg pending]
    rfl
  · rw [step_waiting (s := s.arrive bytes) hcmd ha task, if_neg (by simp [some_arrive])]
    rfl

/-- Settles O59: the calls issue their command at once, and the turns are `hostReceived`, `hostRead` and the return with the
addresses, each in its cases. -/
theorem receiveLoopTurns : Obligations.ReceiveLoopTurns := by
  refine ⟨fun s c what rest hcmd idle ha => ?_, fun s what hcmd ha task => ?_,
    fun s good report total bytes hcmd ha task => ?_, fun s good bytes hcmd ha task => ?_⟩
  · rw [step_of_agenda hcmd ha (.inr idle)]
    rintro (⟨cap, rfl, rfl⟩ | ⟨cap, promisc, rfl, rfl⟩ | ⟨cap, rfl, rfl⟩ | ⟨cap, rfl, rfl⟩) <;> rfl
  · rw [step_of_turn hcmd ha, hostTurn_receiving task]
    refine ⟨fun noFrame => ?_, fun ok some_data => ?_, fun ok no_data reports => ?_, fun ok no_data silent => ?_,
      fun noFrame ok loop => ?_, ?_⟩
    · rw [hostReceived_of_noFrame what noFrame]
      rfl
    · rw [hostReceived_of_ok what ok, hostRead_of_lt some_data]
      rfl
    · rw [hostReceived_of_ok what ok, hostRead_of_le (by simp [no_data]), if_pos reports]
      rfl
    · rw [hostReceived_of_ok what ok, hostRead_of_le (by simp [no_data]), if_neg (by simp [silent])]
      rfl
    · rw [hostReceived_loop loop noFrame ok, State.issue, ← task]
    · rintro cap rfl noFrame ok
      rw [hostReceived_base cap noFrame ok]
      refine ⟨fun some_data => ?_, fun no_data => ?_⟩
      · rw [hostRead_of_lt some_data]
        rfl
      · rw [hostRead_of_le (by simp [no_data])]
        rfl
  · rw [step_of_turn hcmd ha, hostTurn_reading task]
    rintro _ rfl
    refine ⟨fun left => ?_, fun done reports => ?_, fun done silent => ?_⟩
    · rw [hostRead_of_lt left]
      rfl
    · rw [hostRead_of_le done, if_pos reports]
      rfl
    · rw [hostRead_of_le done, if_neg (by simp [silent])]
      rfl
  · rw [step_of_turn hcmd ha, hostTurn_header task]
    rfl

/-! ### host_sendToWait's phases (R209) -/

/-- The phases of a call in progress, which is neither before its attempts nor ended (R209). -/
def SendPhase.running : SendPhase → Bool
  | .sending | .awaitingAck | .retrying => true
  | .idle | .acknowledged | .exhausted => false

section Phases

variable {s t : State}

theorem sendPhase_attempt {job : WaitJob} {k : Nat} (h : s.task = .attempt job k) :
    s.sendPhase = some (if k = 0 then .sending else if k ≤ job.retries then .retrying else .exhausted) := by
  simp [State.sendPhase, h]

theorem sendPhase_transmitted {job : WaitJob} {k t0 : Nat} (h : s.task = .transmitted job k t0) :
    s.sendPhase = some (if s.cmd ≠ none ∨ job.dest = broadcast then .sending else .awaitingAck) := by
  simp [State.sendPhase, h]

theorem sendPhase_polled {job : WaitJob} {k t0 : Nat} (h : s.task = .polled job k t0) :
    s.sendPhase = some .awaitingAck := by
  simp [State.sendPhase, h]

/-- Where a call of host_sendToWait is in progress and R209 maps a state: an attempt's beginning, its transmission or its
polls. -/
theorem task_of_sendPhase {phase : SendPhase} (h : s.sendPhase = some phase)
    (running : phase.running = true) :
    (∃ job k, s.task = .attempt job k) ∨ (∃ job k t0, s.task = .transmitted job k t0) ∨
      ∃ job k t0, s.task = .polled job k t0 := by
  unfold State.sendPhase at h
  split at h
  next => cases h
  next => cases h
  next job k task => exact .inl ⟨job, k, task⟩
  next job k t0 task => exact .inr (.inl ⟨job, k, t0, task⟩)
  next job k t0 task => exact .inr (.inr ⟨job, k, t0, task⟩)
  next => split at h <;> cases h <;> cases running
  all_goals
    cases h
    cases running

/-- The phase is read from the task and the port. -/
theorem sendPhase_kept {phase : SendPhase} (h : s.sendPhase = some phase)
    (running : phase.running = true) (same : t.task = s.task)
    (port : t.cmd = s.cmd) : t.sendPhase = some phase := by
  rw [← h]
  rcases task_of_sendPhase h running with ⟨job, k, task⟩ | ⟨job, k, t0, task⟩ | ⟨job, k, t0, task⟩
  · rw [sendPhase_attempt task, sendPhase_attempt (same.trans task)]
  · rw [sendPhase_transmitted task, sendPhase_transmitted (same.trans task), port]
  · rw [sendPhase_polled task, sendPhase_polled (same.trans task)]

/-- Executing the presented word ends Sending where it was TX.SENDSEQ to one node, and changes no other phase (R209). -/
theorem sendPhase_answered {phase : SendPhase} (h : s.sendPhase = some phase)
    (running : phase.running = true) (same : t.task = s.task)
    (presented : s.cmd ≠ none) (taken : t.cmd = none) :
    t.sendPhase = some phase ∨ phase = .sending ∧ t.sendPhase = some .awaitingAck := by
  rcases task_of_sendPhase h running with ⟨job, k, task⟩ | ⟨job, k, t0, task⟩ | ⟨job, k, t0, task⟩
  · rw [← h, sendPhase_attempt task, sendPhase_attempt (same.trans task)]
    exact .inl rfl
  · obtain rfl : SendPhase.sending = phase := by simpa [sendPhase_transmitted task, presented] using h
    rw [sendPhase_transmitted (same.trans task), taken]
    by_cases dest : job.dest = broadcast
    · exact .inl (by simp [dest])
    · exact .inr ⟨rfl, by simp [dest]⟩
  · rw [← h, sendPhase_polled task, sendPhase_polled (same.trans task)]
    exact .inl rfl

/-- A step of a call in progress keeps its phase, ends the transmission, or is the host's turn. -/
theorem HostMove.sendPhase_cases (move : HostMove s t) {phase : SendPhase} (h : s.sendPhase = some phase)
    (running : phase.running = true) :
    t.sendPhase = some phase ∨ (phase = .sending ∧ t.sendPhase = some .awaitingAck) ∨
      (s.cmd = none ∧ ∃ rest, t = State.hostTurn { s with agenda := rest }) := by
  have busy : s.task ≠ .idle := by
    rcases task_of_sendPhase h running with ⟨_, _, task⟩ | ⟨_, _, _, task⟩ | ⟨_, _, _, task⟩ <;> simp [task]
  cases move with
  | answer presented taken same => exact (sendPhase_answered h running same.task presented taken).imp_right .inl
  | turn unpresented rest => exact .inr (.inr ⟨unpresented, rest, rfl⟩)
  | call idle rest c => exact absurd idle busy
  | other port same => exact .inl (sendPhase_kept h running same.task (port.resolve_right busy))

/-- An attempt transmits, and a broadcast is acknowledged after it (R206, R209). -/
theorem hostTurn_of_sending (hcmd : s.cmd = none) (h : s.sendPhase = some .sending) :
    s.hostTurn.sendPhase = some .sending ∨ s.hostTurn.sendPhase = some .acknowledged := by
  rcases task_of_sendPhase h rfl with ⟨job, k, task⟩ | ⟨job, k, t0, task⟩ | ⟨job, k, t0, task⟩
  · obtain rfl : k = 0 := by
      rw [sendPhase_attempt task, Option.some_inj] at h
      split_ifs at h with zero
      exact zero
    rw [hostTurn_attempt task, hostAttempt_of_le (Nat.zero_le _)]
    exact .inl rfl
  · have dest : job.dest = broadcast := by simpa [sendPhase_transmitted task, hcmd] using h
    rw [hostTurn_acknowledged (.inl ⟨task, dest⟩)]
    exact .inr rfl
  · simp [sendPhase_polled task] at h

/-- The poll window's test goes on polling, or begins the attempt that R209 calls Retrying or Exhausted. -/
theorem hostPoll_sendPhase (job : WaitJob) (k t0 : Nat) :
    (s.hostPoll job k t0).sendPhase = some .awaitingAck ∨ (s.hostPoll job k t0).sendPhase = some .retrying ∨
      (s.hostPoll job k t0).sendPhase = some .exhausted := by
  rcases Nat.lt_or_ge (s.clock - t0) job.timeoutMs with inside | elapsed
  · rw [hostPoll_of_open inside]
    exact .inl rfl
  · rw [hostPoll_of_elapsed elapsed, sendPhase_attempt rfl, if_neg (Nat.succ_ne_zero k)]
    by_cases allowed : k + 1 ≤ job.retries
    · exact .inr (.inl (by rw [if_pos allowed]))
    · exact .inr (.inr (by rw [if_neg allowed]))

theorem hostTurn_of_awaitingAck (hcmd : s.cmd = none) (h : s.sendPhase = some .awaitingAck) :
    s.hostTurn.sendPhase = some .awaitingAck ∨ s.hostTurn.sendPhase = some .acknowledged ∨
      s.hostTurn.sendPhase = some .retrying ∨ s.hostTurn.sendPhase = some .exhausted := by
  rcases task_of_sendPhase h rfl with ⟨job, k, task⟩ | ⟨job, k, t0, task⟩ | ⟨job, k, t0, task⟩
  · rw [sendPhase_attempt task, Option.some_inj] at h
    split_ifs at h
  · have dest : job.dest ≠ broadcast := by simpa [sendPhase_transmitted task, hcmd] using h
    rw [hostTurn_poll (.inl ⟨task, dest⟩)]
    exact (hostPoll_sendPhase job k t0).imp_right .inr
  · by_cases acknowledged : s.status = .ackMatch
    · rw [hostTurn_acknowledged (.inr ⟨task, acknowledged⟩)]
      exact .inr (.inl rfl)
    · rw [hostTurn_poll (.inr ⟨task, acknowledged⟩)]
      exact (hostPoll_sendPhase job k t0).imp_right .inr

/-- A further attempt that RETRIES allows transmits again (R206, R209). -/
theorem hostTurn_of_retrying (h : s.sendPhase = some .retrying) : s.hostTurn.sendPhase = some .sending := by
  rcases task_of_sendPhase h rfl with ⟨job, k, task⟩ | ⟨job, k, t0, task⟩ | ⟨job, k, t0, task⟩
  · have allowed : k ≤ job.retries := by
      rw [sendPhase_attempt task, Option.some_inj] at h
      split_ifs at h with _ allowed
      exact allowed
    rw [hostTurn_attempt task, hostAttempt_of_le allowed]
    rfl
  · rw [sendPhase_transmitted task, Option.some_inj] at h
    split_ifs at h
  · simp [sendPhase_polled task] at h

theorem HostMove.sendPhase_of_sending (move : HostMove s t) (h : s.sendPhase = some .sending) :
    t.sendPhase = some .sending ∨ t.sendPhase = some .awaitingAck ∨ t.sendPhase = some .acknowledged := by
  rcases move.sendPhase_cases h rfl with kept | ⟨_, transmitted⟩ | ⟨hcmd, rest, rfl⟩
  · exact .inl kept
  · exact .inr (.inl transmitted)
  · exact (hostTurn_of_sending (s := { s with agenda := rest }) hcmd h).imp_right .inr

theorem HostMove.sendPhase_of_awaitingAck (move : HostMove s t) (h : s.sendPhase = some .awaitingAck) :
    t.sendPhase = some .awaitingAck ∨ t.sendPhase = some .acknowledged ∨ t.sendPhase = some .retrying ∨
      t.sendPhase = some .exhausted := by
  rcases move.sendPhase_cases h rfl with kept | ⟨other, _⟩ | ⟨hcmd, rest, rfl⟩
  · exact .inl kept
  · cases other
  · exact hostTurn_of_awaitingAck (s := { s with agenda := rest }) hcmd h

theorem HostMove.sendPhase_of_retrying (move : HostMove s t) (h : s.sendPhase = some .retrying) :
    t.sendPhase = some .retrying ∨ t.sendPhase = some .sending := by
  rcases move.sendPhase_cases h rfl with kept | ⟨other, _⟩ | ⟨_, rest, rfl⟩
  · exact .inl kept
  · cases other
  · exact .inr (hostTurn_of_retrying (s := { s with agenda := rest }) h)

end Phases

/-! ### host_sendToWait's turns (R206) -/

theorem dataFlagByte_eq_ofNat (q : BitVec 7) : dataFlagByte q = BitVec.ofNat 8 q.toNat := (BitVec.ofNat_toNat 8 q).symm

section Turns

variable {s : State} (hcmd : s.cmd = none) (ha : s.agenda = [])
include hcmd ha

/-- SEQ.NEXT's answer is the sequence number of every attempt, and loading begins at cell 0 (R206, R83). -/
theorem step_seqNext {job job' : WaitJob} (task : s.task = .seqNext job)
    (hjob : job' = { job with seq := s.data.extractLsb' 0 7 }) :
    (∀ b bs, job.payload = b :: bs → step s = .next { s with
      cmd := some (encode (.txbWr 0#8 b)), task := .load (.reliable job') job.payload 1 }) ∧
    (job.payload = [] → step s = .next { s with task := .attempt job' 0 }) := by
  rw [step_of_turn hcmd ha, hostTurn_seqNext task, ← hjob]
  refine ⟨fun b bs payload => ?_, fun payload => ?_⟩
  · rw [payload, hostLoad_of_lt (Nat.succ_pos _)]
    rfl
  · rw [payload, hostLoad_of_le (Nat.zero_le _)]
    rfl

theorem step_loadReliable {job : WaitJob} {p : List Byte} {i : Nat} (task : s.task = .load (.reliable job) p i) :
    (∀ h : i < p.length, step s = .next { s with
      cmd := some (encode (.txbWr (BitVec.ofNat 8 i) p[i])), task := .load (.reliable job) p (i + 1) }) ∧
    (p.length ≤ i → step s = .next { s with task := .attempt job 0 }) := by
  rw [step_of_turn hcmd ha, hostTurn_load task]
  refine ⟨fun left => ?_, fun done => ?_⟩
  · rw [hostLoad_of_lt left]
    rfl
  · rw [hostLoad_of_le done]
    rfl

theorem step_attempt_of_le {job : WaitJob} {k : Nat} (task : s.task = .attempt job k) (allowed : k ≤ job.retries) :
    step s = .next { s with
      cmd := some (encode (.txSendseq (BitVec.ofNat 8 job.payload.length) job.dest (BitVec.ofNat 8 job.seq.toNat)))
      task := .transmitted job k s.clock } := by
  rw [step_of_turn hcmd ha, hostTurn_attempt task, hostAttempt_of_le allowed, dataFlagByte_eq_ofNat]
  rfl

theorem step_attempt_of_gt {job : WaitJob} {k : Nat} (task : s.task = .attempt job k) (exhausted : job.retries < k) :
    step s = .next { s with task := .idle, result := some .failWait } := by
  rw [step_of_turn hcmd ha, hostTurn_attempt task, hostAttempt_of_gt exhausted]
  rfl

theorem step_acknowledged {job : WaitJob} {k t0 : Nat}
    (h : s.task = .transmitted job k t0 ∧ job.dest = broadcast ∨ s.task = .polled job k t0 ∧ s.status = .ackMatch) :
    step s = .next { s with task := .idle, result := some .acknowledged } := by
  rw [step_of_turn hcmd ha, hostTurn_acknowledged h]
  rfl

theorem step_poll {job : WaitJob} {k t0 : Nat}
    (h : s.task = .transmitted job k t0 ∧ job.dest ≠ broadcast ∨ s.task = .polled job k t0 ∧ s.status ≠ .ackMatch) :
    (s.clock - t0 < job.timeoutMs → step s = .next { s with
      cmd := some (encode (.rxRecvack job.dest (BitVec.ofNat 8 job.seq.toNat))), task := .polled job k t0 }) ∧
    (job.timeoutMs ≤ s.clock - t0 → step s = .next { s with task := .attempt job (k + 1) }) := by
  rw [step_of_turn hcmd ha, hostTurn_poll h]
  refine ⟨fun inside => ?_, fun elapsed => ?_⟩
  · rw [hostPoll_of_open inside, dataFlagByte_eq_ofNat]
    rfl
  · rw [hostPoll_of_elapsed elapsed]

end Turns

theorem step_call_sendToWait {s : State} {d : Byte} {p : List Byte} {timeoutMs retries : Nat} {rest : List Event}
    (hcmd : s.cmd = none) (idle : s.task = .idle) (ha : s.agenda = .call (.sendToWait d p timeoutMs retries) :: rest)
    (fits : p.length ≤ s.params.maxPayloadRel) :
    step s = .next { s with
      agenda := rest, result := none, cmd := some (encode .seqNext)
      task := .seqNext { dest := d, payload := p, timeoutMs := timeoutMs, retries := retries, seq := 0#7 } } := by
  rw [step_of_agenda hcmd ha (.inr idle)]
  exact congrArg Host.Outcome.next (if_neg (Nat.not_lt.2 fits))

/-- Settles O58: the call and the turns task by task, and R209's transitions on every step. -/
theorem sendToWaitTurns : Obligations.SendToWaitTurns := by
  refine ⟨fun s d p timeoutMs retries rest hcmd idle ha fits =>
      ⟨_, rfl, rfl, rfl, rfl, step_call_sendToWait hcmd idle ha fits⟩,
    fun s job hcmd ha task job' hjob => step_seqNext hcmd ha task hjob,
    fun s job p i hcmd ha task => step_loadReliable hcmd ha task, fun s job k t0 hcmd ha => ?_, fun s t hstep => ?_⟩
  · exact ⟨fun task => step_attempt_of_le hcmd ha task, fun task => step_attempt_of_gt hcmd ha task,
      fun task dest => step_acknowledged hcmd ha (.inl ⟨task, dest⟩),
      fun task status => step_acknowledged hcmd ha (.inr ⟨task, status⟩), fun h => step_poll hcmd ha h⟩
  · have move := step_hostMove hstep
    exact ⟨move.sendPhase_of_sending, move.sendPhase_of_awaitingAck, move.sendPhase_of_retrying⟩

/-! ### host_send's run (R201, R83) -/

theorem run_zero (s : State) : Sys2Proof.core.run 0 s = .next s := rfl

theorem run_succ_of_step {s t : State} (h : step s = .next t) (n : Nat) :
    Sys2Proof.core.run (n + 1) s = Sys2Proof.core.run n t := by
  simp [Host.Core.run, Sys2Proof.core, h]

/-- A command that a turn has issued takes one step, and with nothing else on the agenda the step after it is the host's next
turn (R22, R54). -/
theorem run_issue {s t : State} {i : Instr} {next : HostTask} (wf : i.WellFormed) (ha : s.agenda = [])
    (h : exec i (s.issue i next).takeCommand = .next t) (n : Nat) :
    Sys2Proof.core.run (n + 2) (s.issue i next) = Sys2Proof.core.run n t.hostTurn := by
  obtain ⟨-, cmd, -, -, -, agenda⟩ := (exec_effect h).surroundings_kept
  have answer : step (s.issue i next) = .next t :=
    (step_of_cmd rfl).trans ((execWord_of_decode (decodeInvertsEncode i wf) _).trans h)
  rw [run_succ_of_step answer, run_succ_of_step (step_of_turn cmd (agenda.trans ha))]

/-- `t` is `s` with the first `i` bytes of `p` in TXBUF, and nothing but the host's turns ahead. -/
structure LoadedTo (s : State) (p : List Byte) (i : Nat) (t : State) : Prop where
  agenda : t.agenda = []
  params : t.params = s.params
  txs : t.txs = s.txs
  faultFlag : t.faultFlag = s.faultFlag
  loaded : ∀ k, k < i → t.txBufRead k = p[k]?

theorem LoadedTo.issue {s t : State} {p : List Byte} {i : Nat} (h : LoadedTo s p i t) (c : Instr) (next : HostTask) :
    LoadedTo s p i (t.issue c next).takeCommand :=
  ⟨h.agenda, h.params, h.txs, h.faultFlag, h.loaded⟩

/-- One TXB.WR of the next byte (R83, R121). -/
theorem LoadedTo.txBufWrite {s t : State} {p : List Byte} {i : Nat} (h : LoadedTo s p i t) (left : i < p.length) :
    LoadedTo s p (i + 1) ((t.txBufWrite i p[i]).respond .ok 0#16) where
  agenda := h.agenda
  params := h.params
  txs := h.txs
  faultFlag := h.faultFlag
  loaded k hk := by
    rcases Nat.lt_succ_iff_lt_or_eq.1 hk with before | rfl
    · exact (Memory.read_write_other t.txbuf _ before.ne).trans (h.loaded k before)
    · exact (Memory.read_write_same ..).trans (List.getElem?_eq_getElem left).symm

section Send

variable {s : State} {p : List Byte} (legal : s.params.Legal) (fits : p.length ≤ s.params.maxPayload)
include legal fits

theorem index_toNat {n : Nat} (h : n ≤ p.length) : (BitVec.ofNat 8 n).toNat = n := by
  have largest : s.params.maxFrameLen ≤ 255 := legal.2.1
  unfold Params.maxPayload at fits
  exact Nat.mod_eq_of_lt (by omega)

/-- TXB.LOAD by the host's turns: two steps for each byte that is left, and then what follows the load (R83). -/
theorem run_hostLoad (what : HostSend) (left : Nat) : ∀ {i : Nat} {t : State}, i + left = p.length → LoadedTo s p i t →
    ∃ u, LoadedTo s p p.length u ∧ ∀ n,
      Sys2Proof.core.run (n + 2 * left) (t.hostLoad what p i) = Sys2Proof.core.run n (u.hostTransmit what p) := by
  induction left with
  | zero =>
    rintro i t rfl h
    exact ⟨t, h, fun n => by rw [hostLoad_of_le le_rfl]; rfl⟩
  | succ left ih =>
    intro i t hi h
    have within : i < p.length := by omega
    have index := index_toNat legal fits within.le
    have issued := h.issue (.txbWr (BitVec.ofNat 8 i) p[i]) (.load what p (i + 1))
    have write := exec_txbWr_of_lt (idx := BitVec.ofNat 8 i) p[i] (by rw [index, issued.params]; omega)
    rw [index] at write
    obtain ⟨u, loaded, run⟩ := ih (by omega) (issued.txBufWrite within)
    refine ⟨u, loaded, fun n => ?_⟩
    rw [hostLoad_of_lt within, show n + 2 * (left + 1) = n + 2 * left + 2 by omega, run_issue rfl h.agenda write,
      hostTurn_load rfl, run]

/-- A loaded payload goes out in one frame, and host_send returns SUCCESS (R123, R201). -/
theorem run_hostTransmit {t : State} (h : LoadedTo s p p.length t) :
    ∃ u, Sys2Proof.core.run 2 (t.hostTransmit .base p) = .next u ∧ u.result = some .success ∧ u.task = .idle ∧
      u.txs = s.txs ++ frameOf p ∧ u.faultFlag = s.faultFlag := by
  have len := index_toNat legal fits le_rfl
  have issued := h.issue (.txSend (BitVec.ofNat 8 p.length)) .sent
  have send := exec_txSend_of_holds (len := BitVec.ofNat 8 p.length) (by rw [len, issued.params]; exact fits) len.symm
    issued.loaded
  refine ⟨_, (run_issue rfl h.agenda send 0).trans (run_zero _), ?_⟩
  rw [hostTurn_sent rfl]
  exact ⟨rfl, rfl, congrArg (· ++ frameOf p) h.txs, h.faultFlag⟩

end Send

/-- Settles O56: one step for the call, two for each byte, and two for TX.SEND and the return. -/
theorem hostSendTransmitsItsPayload : Obligations.HostSendTransmitsItsPayload := by
  intro s p legal fits hcmd idle ha
  have start : step s = .next (State.hostLoad { s with agenda := [], result := none } .base p 0) := by
    rw [step_of_agenda hcmd ha (.inr idle)]
    exact congrArg Host.Outcome.next (if_neg (Nat.not_lt.2 fits))
  have empty : LoadedTo s p 0 { s with agenda := [], result := none } :=
    ⟨rfl, rfl, rfl, rfl, fun k hk => absurd hk (Nat.not_lt_zero k)⟩
  obtain ⟨t, loaded, load⟩ := run_hostLoad legal fits .base p.length (Nat.zero_add _) empty
  obtain ⟨u, send, returned⟩ := run_hostTransmit legal fits loaded
  refine ⟨u, ?_, returned⟩
  rw [show 2 * p.length + 3 = 2 + 2 * p.length + 1 by omega, run_succ_of_step start, load, send]

end Sys2Proof.Machine
end

section
/-! PROOFS. The exceptions family (60_exceptions.md): the STATUS codes each command reports, and no step stops. -/

namespace Sys2Proof.Machine

/-! ### The STATUS codes (R221) -/

theorem producedBy_of_transmits {i : Instr} (h : transmits i = true) : producedBy i = [.oversize, .faultUnwritten, .ok] := by
  cases i with
  | txSend | txSendto | txSendseq => rfl
  | _ => cases h

/-- Every receive lists the two ends of the receives' common part (R221). -/
theorem noFrame_badFcs_mem_producedBy {i : Instr} (h : receives i = true) :
    .noFrame ∈ producedBy i ∧ .badFcs ∈ producedBy i := by
  cases i with
  | rxRecv | rxRecvfrom | rxRecvrel | rxRecvack => simp [producedBy]
  | _ => cases h

/-- The code a command reports is one of those listed for it, effect by effect (R221, R224). -/
theorem ExecEffect.status_mem_producedBy {i : Instr} {s t : State} (h : ExecEffect s i t) : t.status ∈ producedBy i := by
  cases h with
  | read _ _ _ hst => exact hst
  | range h => exact h
  | oversize h | unwritten h | sent h => simp [producedBy_of_transmits h]
  | noFrame h => exact (noFrame_badFcs_mem_producedBy h).1
  | badFcs h => exact (noFrame_badFcs_mem_producedBy h).2
  | undelivered _ _ _ _ _ hst => exact hst
  | baseFrame => cases hg : goodFrame s.rxPull.bufferedFrame <;> simp [producedBy, hg]
  | crcInit | crcUpd | txbWr | cfgSetaddr | seqNext | rxAvail | addressedFrame | duplicate | newMessage =>
    simp [producedBy]

/-- 0x0C to 0x0E are reserved (R221). -/
theorem Status.code_not_reserved (st : Status) : st.code.toNat ≤ 0x0B ∨ st.code.toNat = 0x0F := by
  cases st <;> decide

/-- Settles O35: `exec` answers one of its effects, and every effect reports a listed code. -/
theorem everyCommandAnswersAListedStatus : Obligations.EveryCommandAnswersAListedStatus := by
  intro i s
  obtain ⟨t, answer, effect⟩ := exec_next_effect i s
  exact ⟨t, answer, effect.status_mem_producedBy, t.status.code_not_reserved⟩

/-! ### No step stops (R220, R226) -/

/-- Settles O46: a presented word's execution answers a next state, and so does a move of host or environment. -/
theorem everyStepAnswersANextState : Obligations.EveryStepAnswersANextState := by
  intro s
  rcases Option.eq_none_or_eq_some s.cmd with hcmd | ⟨w, hcmd⟩
  · exact ⟨s.agentsMove, by simp only [step, hcmd]⟩
  · obtain ⟨t, answer, -⟩ := execWord_sameHost s.takeCommand w
    exact ⟨t, (step_of_cmd hcmd).trans answer⟩

end Sys2Proof.Machine
end

section
/-! PROOFS. The reset family (70_reset_and_hazards.md): what a power-on leaves in every element, and the block's wait for a
command. -/

namespace Sys2Proof.Machine

/-! ### What reset leaves (R240) -/

/-- Every TXBUF cell is unwritten at power-on (R240). -/
@[simp] theorem fresh_txBufRead (p : Params) (i : Nat) : (State.fresh p).txBufRead i = none := rfl

/-- LASTSEEN is 0 for every source at power-on (R240). -/
@[simp] theorem fresh_lastSeen (p : Params) (a : Byte) : (State.fresh p).lastSeen a = 0#7 :=
  Vector.getElem_replicate a.isLt

/-- Settles O42: the two tables by their entries at power-on, each register by its field of `State.fresh`, and a power-on by
its definition, which keeps transport, host, clock and parameters. -/
theorem resetLeavesTheListedValues : Obligations.ResetLeavesTheListedValues := by
  have cells : ∀ i, State.reset.txBufRead i = none := fresh_txBufRead Params.default
  have entries : ∀ a, State.reset.lastSeen a = 0#7 := fresh_lastSeen Params.default
  exact ⟨rfl, rfl, rfl, rfl, cells, rfl, rfl, rfl, rfl, rfl, rfl, rfl, rfl, entries, rfl, fun _ => rfl⟩

/-! ### The wait for a command (R242) -/

/-- Settles O48: with an empty agenda a step is the host's turn, and an idle host has none. -/
theorem blockWaitsForACommand : Obligations.BlockWaitsForACommand := by
  intro s hcmd ha idle
  rw [step_of_turn hcmd ha, hostTurn_idle idle]

end Sys2Proof.Machine
end
